-- ==== Sys2Proof/Word.lean ====
section
/-!
DEFINITION. The two word types of the block: the 16-bit word of the sine table and of the `SMP` format
(20_memory.md R37, 30_encoding.md R56), and the 3-bit control word of format `S` (30_encoding.md R59).
Every value of the block is unsigned and bit 0 is its least significant bit (00_scope.md R9), as in `BitVec`.
-/

namespace Sys2Proof

/-- A word of the sine table ROM, of `M`, of `SAMPLE` and of the `sample` port: unsigned offset binary
(20_memory.md R37, 30_encoding.md R56). -/
abbrev Word := BitVec 16

/-- The control word of format `S`: the 3-bit register `STEP` is the whole of it (30_encoding.md R59). -/
abbrev ControlWord := BitVec 3

end Sys2Proof
end

