-- ==== Sys2Proof/Config.lean ====
section
/-!
DEFINITION. What is fixed when the block is built: the constants of 00_scope.md R6, the four parameters of R7
(`ELAPSED_W`, `DUTY_NUM`, `DUTY_DEN`, `SINE_TABLE`), the default sine table of 20_memory.md R40, and the free values of the
model (opaque constants: what the spec leaves at "any value").
-/

namespace Sys2Proof

/-- `F1`, the base frequency (00_scope.md R6). -/
def f1 : Nat := 1000

/-- `F2`, the peak frequency (00_scope.md R6). -/
def f2 : Nat := 2000

/-- `MOD_RATE`, the multiplier of the modulation pass (00_scope.md R6). -/
def modRate : Nat := 4

/-- `OUTER_PERIOD` in microseconds (00_scope.md R6). -/
def outerPeriod : Nat := 2000000

/-- `ANG_FULL_SCALE`, the scale of `t_scaled` (00_scope.md R6). -/
def angFullScale : Nat := 32768

/-- `TABLE_LEN`, the number of entries of the sine table (00_scope.md R6). -/
def tableLen : Nat := 256

/-- `POS_PERIOD`, the period of the angular position (00_scope.md R6). -/
def posPeriod : Nat := 65536

/-- `FRAC_DIV`, the positions of one table bucket (00_scope.md R6). -/
def fracDiv : Nat := 256

/-- `SAMPLE_MAX`, the greatest entry of an admissible table (00_scope.md R6). -/
def sampleMax : Nat := 65534

/-- The contents of the sine table ROM: 256 words of 16 bits, by index (20_memory.md R35, R36). -/
abbrev SineTable := Vector Word 256

/-- The build-time parameters of the block (00_scope.md R7). A parameter set with `ELAPSED_W` = 0 or `DUTY_DEN` = 0 is refused
when it is built, not at a step (00_scope.md R7, 44_pwm_duty_mapper.md R98): the two proof fields say so. An inadmissible table
is not refused: "The block does not check its table" (70_reset_and_hazards.md R144). -/
structure Config where
  /-- `ELAPSED_W`, the width of the `elapsed_micros` port in bits. -/
  elapsedW : Nat
  /-- `DUTY_NUM`, the numerator of the duty mapping. -/
  dutyNum : Nat
  /-- `DUTY_DEN`, the divisor of the duty mapping. -/
  dutyDen : Nat
  /-- `SINE_TABLE`, the contents of the ROM. -/
  sineTable : SineTable
  elapsedW_pos : 1 ≤ elapsedW := by decide
  dutyDen_pos : 1 ≤ dutyDen := by decide
deriving DecidableEq, Repr

/-- Entries 0 to 63 of the listing (20_memory.md R40), eight to a row. -/
def sineRows0 : List Word :=
    [32767, 33571, 34375, 35177, 35979, 36778, 37575, 38369]
  ++ [39160, 39946, 40729, 41506, 42279, 43045, 43806, 44560]
  ++ [45306, 46046, 46777, 47499, 48213, 48918, 49613, 50297]
  ++ [50971, 51635, 52286, 52926, 53554, 54170, 54772, 55361]
  ++ [55937, 56498, 57046, 57578, 58096, 58599, 59086, 59557]
  ++ [60012, 60450, 60872, 61277, 61665, 62035, 62388, 62723]
  ++ [63040, 63338, 63619, 63880, 64123, 64347, 64552, 64738]
  ++ [64904, 65052, 65179, 65288, 65376, 65445, 65495, 65524]

/-- Entries 64 to 127 of the listing (20_memory.md R40), eight to a row. -/
def sineRows1 : List Word :=
    [65534, 65524, 65495, 65445, 65376, 65288, 65179, 65052]
  ++ [64904, 64738, 64552, 64347, 64123, 63880, 63619, 63338]
  ++ [63040, 62723, 62388, 62035, 61665, 61277, 60872, 60450]
  ++ [60012, 59557, 59086, 58599, 58096, 57578, 57046, 56498]
  ++ [55937, 55361, 54772, 54170, 53554, 52926, 52286, 51635]
  ++ [50971, 50297, 49613, 48918, 48213, 47499, 46777, 46046]
  ++ [45306, 44560, 43806, 43045, 42279, 41506, 40729, 39946]
  ++ [39160, 38369, 37575, 36778, 35979, 35177, 34375, 33571]

/-- Entries 128 to 191 of the listing (20_memory.md R40), eight to a row. -/
def sineRows2 : List Word :=
    [32767, 31963, 31159, 30357, 29555, 28756, 27959, 27165]
  ++ [26374, 25588, 24805, 24028, 23255, 22489, 21728, 20974]
  ++ [20228, 19488, 18757, 18035, 17321, 16616, 15921, 15237]
  ++ [14563, 13899, 13248, 12608, 11980, 11364, 10762, 10173]
  ++ [9597, 9036, 8488, 7956, 7438, 6935, 6448, 5977]
  ++ [5522, 5084, 4662, 4257, 3869, 3499, 3146, 2811]
  ++ [2494, 2196, 1915, 1654, 1411, 1187, 982, 796]
  ++ [630, 482, 355, 246, 158, 89, 39, 10]

/-- Entries 192 to 255 of the listing (20_memory.md R40), eight to a row. -/
def sineRows3 : List Word :=
    [0, 10, 39, 89, 158, 246, 355, 482]
  ++ [630, 796, 982, 1187, 1411, 1654, 1915, 2196]
  ++ [2494, 2811, 3146, 3499, 3869, 4257, 4662, 5084]
  ++ [5522, 5977, 6448, 6935, 7438, 7956, 8488, 9036]
  ++ [9597, 10173, 10762, 11364, 11980, 12608, 13248, 13899]
  ++ [14563, 15237, 15921, 16616, 17321, 18035, 18757, 19488]
  ++ [20228, 20974, 21728, 22489, 23255, 24028, 24805, 25588]
  ++ [26374, 27165, 27959, 28756, 29555, 30357, 31159, 31963]
/-- The listing of `SINE_TABLE_DEFAULT`, index 0 first (20_memory.md R40). -/
def sineListing : List Word := sineRows0 ++ sineRows1 ++ sineRows2 ++ sineRows3

theorem sineRows0_length : sineRows0.length = 64 := rfl
theorem sineRows1_length : sineRows1.length = 64 := rfl
theorem sineRows2_length : sineRows2.length = 64 := rfl
theorem sineRows3_length : sineRows3.length = 64 := rfl

theorem sineListing_length : sineListing.length = 256 := by
  simp [sineListing, sineRows0_length, sineRows1_length, sineRows2_length, sineRows3_length]

/-- `SINE_TABLE_DEFAULT` (20_memory.md R39, R40). -/
def sineTableDefault : SineTable := ⟨sineListing.toArray, sineListing_length⟩

/-- The default configuration: `ELAPSED_W` = 64, (`DUTY_NUM`, `DUTY_DEN`) = (100, 65534), the default table
(00_scope.md R7, 44_pwm_duty_mapper.md R99). -/
def Config.default : Config :=
  { elapsedW := 64, dutyNum := 100, dutyDen := 65534, sineTable := sineTableDefault }

/-- The source-compatible duty parameters (50, 32768), all else as in the default (44_pwm_duty_mapper.md R99). -/
def Config.sourceCompatible : Config :=
  { elapsedW := 64, dutyNum := 50, dutyDen := 32768, sineTable := sineTableDefault }

/-- FREE VALUE: what the host drives on `elapsed_micros` at a step for which State lists no input: "the value sampled at a `PHASE`
step is a free draw" (10_state.md R16; 93_implementation_defined.md U8, U13). Assumption log 2. -/
opaque Config.freeElapsedMicros : Nat → Nat

/-- FREE VALUE: what `T` holds after a reset step, which leaves it unspecified (10_state.md R30, R31;
93_implementation_defined.md U11: "absent, equivalently any value"). Assumption log 4. -/
opaque Config.freeT : Nat → BitVec 15

/-- FREE VALUE: what `M` holds after a reset step (10_state.md R30, R31; U11). Assumption log 4. -/
opaque Config.freeM : Nat → BitVec 16

/-- FREE VALUE: what `FREQ` holds after a reset step (10_state.md R30, R31; U11). Assumption log 4. -/
opaque Config.freeFreq : Nat → BitVec 12

end Sys2Proof
end

