-- ==== Sys2Proof/Syntax.lean ====
section
/-!
DEFINITION. The operation set: the five rows of spec/opcode_table.json (30_encoding.md R58, R63). "Operation" stands where a
processor's manual says "instruction" (00_scope.md R12).
-/

namespace Sys2Proof

/-- The five operations. None has an operand field: "its source and destination registers, its constants and its multiplexer setting
are all fixed by which operation it is" (30_encoding.md R58, R61, R63, R65). -/
inductive Instr where
  /-- `PHASE`, STEP 0: samples `elapsed_micros` and writes `T` (41_phase_accumulator.md R78). -/
  | phase
  /-- `LUTM`, STEP 1: the modulation lookup, writes `M` (42_mux_and_scaler.md R85). -/
  | lutm
  /-- `FMOD`, STEP 2: the frequency value, writes `FREQ` (43_fixed_point_modulator.md R95). -/
  | fmod
  /-- `LUTC`, STEP 3: the carrier lookup, writes `SAMPLE` (42_mux_and_scaler.md R86). -/
  | lutc
  /-- `DUTY`, STEP 4: the duty mapping, writes `DUTY` and `VALID` (44_pwm_duty_mapper.md R101). -/
  | duty
deriving DecidableEq, Repr

end Sys2Proof
end

