-- ==== Sys2Proof/Decode.lean ====
section
/-!
DEFINITION. The decoder and the encoder of the control word (30_encoding.md R59, R63, R64).
-/

namespace Sys2Proof

/-- Why a control word selects no operation. -/
inductive DecodeError where
  /-- `op` is 5, 6 or 7: "select no operation" (30_encoding.md R64). -/
  | reservedCode (op : ControlWord)
deriving DecidableEq, Repr

/-- One row of the operation table: the word's bits under `mask` must equal `value`. -/
structure OpRow where
  op : Instr
  value : ControlWord
  mask : ControlWord
deriving DecidableEq, Repr

/-- The operation table as spec/opcode_table.json gives it: `match` and `mask` of each row (30_encoding.md R59, R63). -/
def opTable : List OpRow :=
  [⟨.phase, 0, 7⟩, ⟨.lutm, 1, 7⟩, ⟨.fmod, 2, 7⟩, ⟨.lutc, 3, 7⟩, ⟨.duty, 4, 7⟩]

/-- Does the control word fall under the row? -/
def OpRow.hits (r : OpRow) (op : ControlWord) : Bool := (op &&& r.mask) == r.value

/-- The decoder: the row of the operation table the control word falls under; a reserved code is rejected by name, never
given a neighbour's operation (30_encoding.md R59, R64). -/
def decode (op : ControlWord) : Except DecodeError Instr :=
  match opTable.find? (fun r => r.hits op) with
  | some r => .ok r.op
  | none => .error (.reservedCode op)

/-- The encoder: each operation's `op` code, binary as 30_encoding.md R59 prints it. -/
def encode : Instr → ControlWord
  | .phase => 0b000
  | .lutm => 0b001
  | .fmod => 0b010
  | .lutc => 0b011
  | .duty => 0b100

/-- The multiplexer select `sel`, derived from the operation number and never stored: 1 when it is 3 (`LUTC`), 0 otherwise
(30_encoding.md R60). -/
def muxSelect (op : ControlWord) : Bool := op == 3

/-- The control word held by the low bits of a number of `nbits` bits; the register `STEP` has three bits and no more
(30_encoding.md R59: mask 7, "all three bits are compared"). Assumption log 7. -/
def controlWord (nbits w : Nat) : ControlWord := BitVec.ofNat 3 (w % 2 ^ nbits)

/-- The operation the decoder reads from a word numbered as spec/opcode_table.json numbers it. -/
def decodeTableWord (nbits w : Nat) : Option Instr :=
  match decode (controlWord nbits w) with
  | .ok i => some i
  | .error _ => none

end Sys2Proof
end

