-- ==== Sys2Proof/Machine/State.lean ====
section
/-!
DEFINITION. The state of the block, the reasons a step can stop, and the state right after reset (10_state.md).
-/

namespace Sys2Proof.Machine

/-- What the host puts on the input ports at one step (10_state.md R14, R16; `clk` is the step itself). -/
structure HostInput where
  /-- The `rst` port. -/
  rst : Bool
  /-- The `elapsed_micros` port. `none`: the host's value is not written down, so an operation that reads the port gets a free draw
  ("the value sampled at a `PHASE` step is a free draw", 10_state.md R16). -/
  elapsedMicros : Option Nat
deriving DecidableEq, Repr

/-- A record of the event history (10_state.md R17: "model bookkeeping, not hardware state"). -/
inductive Event where
  /-- A `PHASE` step read `e` from `elapsed_micros`. -/
  | sampled (e : Nat)
  /-- A `DUTY` step read `s` from `SAMPLE` and wrote `d` to `DUTY`. -/
  | forwarded (s : Word) (d : Nat)
  /-- A reset step. -/
  | reset
deriving DecidableEq, Repr

/-- The state. The seven registers are the spec's (10_state.md R18 to R24); `config` is the build-time configuration, carried here because
a step takes nothing but the state (log 1); `resetSeen`, `inputs`, `draws` and `history` are the model's own fields. -/
structure State where
  /-- The configuration the block was built with, "the same at every step of a run" (10_state.md R34). -/
  config : Config
  /-- `STEP`, 3 bits, the program counter (10_state.md R24). -/
  stepReg : ControlWord
  /-- `T`, 15 bits (10_state.md R18). -/
  regT : BitVec 15
  /-- `M`, 16 bits (10_state.md R19). -/
  regM : Word
  /-- `FREQ`, 12 bits (10_state.md R20). -/
  freq : BitVec 12
  /-- `SAMPLE`, 16 bits (10_state.md R21). -/
  sample : Word
  /-- `DUTY`, `DUTY_W` bits: a number, since the width depends on the configuration (10_state.md R22). -/
  duty : Nat
  /-- `VALID`, the only flag (10_state.md R23). -/
  valid : Bool
  /-- A reset step has happened since power-up. Until then "every register, `STEP` included, holds no value and the sequencer has no step"
  (70_reset_and_hazards.md R132, 10_state.md R31; log 3). -/
  resetSeen : Bool
  /-- What the host puts on the input ports at this step (the head) and at the steps after it; past the end of the list `rst` is 0 and
  `elapsed_micros` is a free draw (10_state.md R16; log 2). -/
  inputs : List HostInput
  /-- How many free values the run has drawn: the index of the next one (log 2, log 4). -/
  draws : Nat
  /-- The event history in step order, the oldest event first (10_state.md R17). -/
  history : List Event
deriving DecidableEq, Repr

/-- Why the machine stops with a fault. No operation raises one: "The complete list of exception causes is empty" (60_exceptions.md R117). -/
inductive Fault where
  /-- Raised by `step` alone, at a step with `rst` = 0 before the first reset step after power-up: `STEP` holds no value, so the sequencer
  is stuck (70_reset_and_hazards.md R132, 10_state.md R31). Safe: the spec gives that state no step. -/
  | noStepBeforeReset
deriving DecidableEq, Repr

/-- Why the machine refuses a step. -/
inductive Refusal where
  /-- The operation has no meaning in this model. No arm of `exec` answers it. Safe. -/
  | notModelled (mnemonic : String)
  /-- Raised by `step` alone: `STEP` holds 5, 6 or 7, a state that a model with three raw bits "must refuse (give no step to)"
  (30_encoding.md R64). Safe: no rule gives such a state a step, and none reaches it. -/
  | reservedStepCode (op : ControlWord)
deriving DecidableEq, Repr

/-- The machine right after reset (10_state.md R30). `STEP`, `VALID`, `DUTY` and `SAMPLE` are the spec's; `T`, `M` and `FREQ` are 0 by DESIGN CHOICE
(log 4: the spec gives them no value); the configuration is the default one (log 1); nothing is known of the host's inputs. -/
def State.reset : State where
  config := Config.default
  stepReg := 0
  regT := 0
  regM := 0
  freq := 0
  sample := 0
  duty := 0
  valid := false
  resetSeen := true
  inputs := []
  draws := 0
  history := []

/-- The machine at power-up, before its first reset step. The spec gives no register a value there (10_state.md R30, R31, 70_reset_and_hazards.md
R132). DESIGN CHOICE (log 3): every register is 0 and `VALID` is false, so the port functions read `duty` = 0, `duty_valid` = 0 and `sample` = 0
before the first reset step. Unsafe for a claim about the ports of this one state; no statement makes one. -/
def State.powerUp : State := { State.reset with resetSeen := false }

end Sys2Proof.Machine
end

