-- ==== Sys2Proof/Machine/Ops.lean ====
section
/-!
DEFINITION. The named operations over the ports, the registers and the ROM that the five operations and the step are written with, and the
reset step. The block takes no exception and returns from none (60_exceptions.md R117, R123, R124), so there is no exception entry here:
the one event that breaks the schedule is the reset step.
-/

namespace Sys2Proof.Machine

/-! ### Register writes (00_scope.md R11: `X <- v`) -/

/-- `T <- v`. -/
def setT (s : State) (v : BitVec 15) : State := { s with regT := v }

/-- `M <- v`. -/
def setM (s : State) (v : Word) : State := { s with regM := v }

/-- `FREQ <- v`. -/
def setFreq (s : State) (v : BitVec 12) : State := { s with freq := v }

/-- `SAMPLE <- v`. -/
def setSample (s : State) (v : Word) : State := { s with sample := v }

/-- `DUTY <- v`. -/
def setDuty (s : State) (v : Nat) : State := { s with duty := v }

/-- `STEP <- v`, the block's only control transfer (00_scope.md R11, 45_sample_transaction.md R107). -/
def setStep (s : State) (v : ControlWord) : State := { s with stepReg := v }

/-- `event(ev)`: appends a record to the history; "it changes no hardware state" (00_scope.md R11, 10_state.md R17). -/
def record (s : State) (ev : Event) : State := { s with history := s.history ++ [ev] }

/-! ### Input ports (10_state.md R14, R16) -/

/-- What is on the input ports when the list of inputs says nothing: `rst` is 0, `elapsed_micros` is a free draw (log 2). -/
def unlistedInput : HostInput := { rst := false, elapsedMicros := none }

/-- The input ports at this step. -/
def currentInput (s : State) : HostInput := s.inputs.headD unlistedInput

/-- The `rst` port at this step. -/
def rst (s : State) : Bool := (currentInput s).rst

/-- `in.elapsed_micros` at this step: the `ELAPSED_W` wires of the port (10_state.md R14, 00_scope.md R7, R11). A listed number is
cut to the port's width, as is a free draw (log 2). -/
def elapsedMicros (s : State) : Nat :=
  (match (currentInput s).elapsedMicros with
    | some v => v
    | none => Config.freeElapsedMicros s.draws) % 2 ^ s.config.elapsedW

/-- Counts the free value that reading `elapsed_micros` used up, if it used one (log 2). -/
def countElapsedDraw (s : State) : State :=
  match (currentInput s).elapsedMicros with
  | some _ => s
  | none => { s with draws := s.draws + 1 }

/-- The next step's inputs come to the front of the list. -/
def nextInputs (s : State) : State := { s with inputs := s.inputs.tail }

/-! ### Output ports (10_state.md R15): each is the current value of a register -/

/-- The `duty` port. -/
def portDuty (s : State) : Nat := s.duty

/-- The `duty_valid` port. -/
def portDutyValid (s : State) : Bool := s.valid

/-- The `sample` port. -/
def portSample (s : State) : Word := s.sample

/-! ### The sine table ROM (20_memory.md R42, R43) -/

/-- `MemRead(i, 16)`: the word at index `i`, "always, at once, with no other effect" (20_memory.md R43). The index has 8 bits, so every
index is in the table; there is no `MemWrite` (00_scope.md R11). -/
def memRead (c : Config) (i : BitVec 8) : Word := c.sineTable[i.toNat]'(by have := i.isLt; omega)

/-! ### The control word and the reset step -/

/-- The control word of this step: the content of `STEP`. Nothing is fetched from a memory (20_memory.md R52, 30_encoding.md R59). -/
def fetch (s : State) : ControlWord := s.stepReg

/-- The reset step (70_reset_and_hazards.md R131): `STEP`, `VALID`, `DUTY`, `SAMPLE <- 0`, the event `reset`, no read of `elapsed_micros`. `T`, `M` and `FREQ`
are left unspecified: free values (93_implementation_defined.md U11; log 4). -/
def resetStep (s : State) : State :=
  record
    { s with
      stepReg := 0
      valid := false
      duty := 0
      sample := 0
      regT := Config.freeT s.draws
      regM := Config.freeM s.draws
      freq := Config.freeFreq s.draws
      draws := s.draws + 1
      resetSeen := true }
    .reset

end Sys2Proof.Machine
end

