-- ==== Sys2Proof/Machine/Operands.lean ====
section
/-!
DEFINITION. The combinational values of the datapath, each in the width 10_state.md R27 fixes for it. An operation has no operand fields
(30_encoding.md R58), so its operands are these values.
-/

namespace Sys2Proof.Machine

/-- `bits(v)`: "the least `n` with `v < 2^n` (and `bits(0) = 1`)" (00_scope.md R9). -/
def bits (v : Nat) : Nat := if v = 0 then 1 else Nat.log2 v + 1

/-- `DUTY_W = bits((65535 * DUTY_NUM) div DUTY_DEN)` (44_pwm_duty_mapper.md R100). -/
def dutyW (c : Config) : Nat := bits ((65535 * c.dutyNum) / c.dutyDen)

/-! ### `phase_accumulator` (41_phase_accumulator.md R78) -/

/-- `e_red = e mod 2_000_000`, 21 bits. -/
def eRed (e : Nat) : BitVec 21 := BitVec.ofNat 21 (e % outerPeriod)

/-- `ph_prod = e_red * 32768`, 36 bits. -/
def phProd (r : BitVec 21) : BitVec 36 := r.setWidth 36 * BitVec.ofNat 36 angFullScale

/-- `t = ph_prod div 2_000_000`, 15 bits. -/
def tQuot (p : BitVec 36) : BitVec 15 := (p / BitVec.ofNat 36 outerPeriod).setWidth 15

/-! ### `mux_and_scaler` (42_mux_and_scaler.md R82, R83) and `sine_lut_rom` (40_sine_lut_rom.md R67, R68) -/

/-- `mult`, 12 bits: 4 if `sel` = 0, `FREQ` if `sel` = 1. -/
def mult (sel : Bool) (f : BitVec 12) : BitVec 12 := if sel then f else BitVec.ofNat 12 modRate

/-- `pos = T * mult`, 27 bits, format `POS`. -/
def pos (t : BitVec 15) (m : BitVec 12) : BitVec 27 := t.setWidth 27 * m.setWidth 27

/-- `idx = pos[15:8]`, 8 bits. -/
def idx (p : BitVec 27) : BitVec 8 := p.extractLsb' 8 8

/-- `rom_q = MemRead(idx, 16)`, 16 bits. -/
def romQ (c : Config) (p : BitVec 27) : Word := memRead c (idx p)

/-! ### `fixed_point_modulator` (43_fixed_point_modulator.md R95) -/

/-- `fm_prod = 1000 * M`, 26 bits; the multiplier is `F2 - F1` (43_fixed_point_modulator.md R92). -/
def fmProd (m : Word) : BitVec 26 := BitVec.ofNat 26 (f2 - f1) * m.setWidth 26

/-- `fm_q = fm_prod div 32768 = fm_prod[25:15]`, 11 bits. -/
def fmQ (p : BitVec 26) : BitVec 11 := p.extractLsb' 15 11

/-- `freq = 1000 + fm_q`, 12 bits. -/
def freqSum (q : BitVec 11) : BitVec 12 := BitVec.ofNat 12 f1 + q.setWidth 12

/-! ### `pwm_duty_mapper` (44_pwm_duty_mapper.md R101) -/

/-- `du_prod = SAMPLE * DUTY_NUM`, `16 + bits(DUTY_NUM)` bits. -/
def duProd (c : Config) (s : Word) : BitVec (16 + bits c.dutyNum) :=
  s.setWidth (16 + bits c.dutyNum) * BitVec.ofNat (16 + bits c.dutyNum) c.dutyNum

/-- `du_q = du_prod div DUTY_DEN`, `DUTY_W` bits. -/
def duQ (c : Config) (s : Word) : BitVec (dutyW c) := BitVec.ofNat (dutyW c) ((duProd c s).toNat / c.dutyDen)

end Sys2Proof.Machine
end

