-- ==== Sys2Proof/Machine/FixedPointModulator.lean ====
section
/-!
DEFINITION. The operation of the sub-block `fixed_point_modulator`.
-/

namespace Sys2Proof.Machine

/-- `FMOD` (43_fixed_point_modulator.md R95): `FREQ <- 1000 + (1000 * M) div 32768`. -/
def execFmod (s : State) : Host.Outcome State Fault Refusal :=
  .next (setStep (setFreq s (freqSum (fmQ (fmProd s.regM)))) 3)

end Sys2Proof.Machine
end

