-- ==== Sys2Proof/Machine/MuxAndScaler.lean ====
section
/-!
DEFINITION. The two lookup operations of the sub-blocks `mux_and_scaler` and `sine_lut_rom`: two passes through one multiplier and one ROM,
told apart by `sel` (42_mux_and_scaler.md, 30_encoding.md R60).
-/

namespace Sys2Proof.Machine

/-- One pass: `LUT(SCALE(sel, T, FREQ))`, with `sel` derived from the operation number `op` (30_encoding.md R58, R60). -/
def lookup (op : ControlWord) (s : State) : Word := romQ s.config (pos s.regT (mult (muxSelect op) s.freq))

/-- `LUTM` (42_mux_and_scaler.md R85): `M <- LUT(T * 4)`. -/
def execLutm (s : State) : Host.Outcome State Fault Refusal :=
  .next (setStep (setM s (lookup (encode .lutm) s)) 2)

/-- `LUTC` (42_mux_and_scaler.md R86): `SAMPLE <- LUT(T * FREQ)`. -/
def execLutc (s : State) : Host.Outcome State Fault Refusal :=
  .next (setStep (setSample s (lookup (encode .lutc) s)) 4)

end Sys2Proof.Machine
end

