-- ==== Sys2Proof/Machine/PhaseAccumulator.lean ====
section
/-!
DEFINITION. The operation of the sub-block `phase_accumulator`. Despite the name nothing is accumulated (41_phase_accumulator.md R81).
-/

namespace Sys2Proof.Machine

/-- `PHASE` (41_phase_accumulator.md R78): samples `elapsed_micros`, writes `T`. The only operation that reads an input port. -/
def execPhase (s : State) : Host.Outcome State Fault Refusal :=
  let e := elapsedMicros s
  .next (record (setStep (setT (countElapsedDraw s) (tQuot (phProd (eRed e)))) 1) (.sampled e))

end Sys2Proof.Machine
end

