-- ==== Sys2Proof/Machine/Flags.lean ====
section
/-!
DEFINITION. The block's only flag, `VALID` (10_state.md R23). There are no condition codes, carry, overflow or zero flags, and no operation
reads `VALID`.
-/

namespace Sys2Proof.Machine

/-- `VALID <- 1`, by every `DUTY` operation; "it does not pulse per sample" (10_state.md R23, 44_pwm_duty_mapper.md R101). Only the reset
step clears it (`resetStep`, 70_reset_and_hazards.md R131). -/
def setValid (s : State) : State := { s with valid := true }

end Sys2Proof.Machine
end

