-- ==== Sys2Proof/Machine/PwmDutyMapper.lean ====
section
/-!
DEFINITION. The operation of the sub-block `pwm_duty_mapper`.
-/

namespace Sys2Proof.Machine

/-- `DUTY` (44_pwm_duty_mapper.md R101): `DUTY <- (SAMPLE * DUTY_NUM) div DUTY_DEN`, `VALID <- 1`; the transaction ends. -/
def execDuty (s : State) : Host.Outcome State Fault Refusal :=
  let d := (duQ s.config s.sample).toNat
  .next (record (setStep (setValid (setDuty s d)) 0) (.forwarded s.sample d))

end Sys2Proof.Machine
end

