-- ==== Sys2Proof/Machine/Dispatch.lean ====
section
/-!
DEFINITION. The operation selected by `STEP` (30_encoding.md R58): one arm per operation.
-/

namespace Sys2Proof.Machine

def exec (i : Instr) (s : State) : Host.Outcome State Fault Refusal :=
  match i with
  | .phase => Sys2Proof.Machine.execPhase s
  | .lutm => Sys2Proof.Machine.execLutm s
  | .fmod => Sys2Proof.Machine.execFmod s
  | .lutc => Sys2Proof.Machine.execLutc s
  | .duty => Sys2Proof.Machine.execDuty s

end Sys2Proof.Machine
end

