-- ==== Sys2Proof/Machine/Step.lean ====
section
/-!
DEFINITION. One step of the block: a reset step if `rst` is 1, else the operation selected by `STEP` (10_state.md R13,
60_exceptions.md R122).
-/

namespace Sys2Proof.Machine

/-- What a step adds around an operation: the next step's inputs come to the front. -/
def thenNextInputs : Host.Outcome State Fault Refusal → Host.Outcome State Fault Refusal
  | .next t => .next (nextInputs t)
  | .fault r => .fault r
  | .refused r => .refused r

/-- One step. Reset has priority: "the operation is not executed, in whole or in part" (60_exceptions.md R122). Before the first reset step
the sequencer is stuck (70_reset_and_hazards.md R132); a reserved `STEP` code is refused (30_encoding.md R64). -/
def step (s : State) : Host.Outcome State Fault Refusal :=
  if rst s then .next (nextInputs (resetStep s))
  else if s.resetSeen then
    match decode (fetch s) with
    | .ok i => thenNextInputs (exec i s)
    | .error (.reservedCode op) => .refused (.reservedStepCode op)
  else .fault .noStepBeforeReset

/-- The state with `STEP` holding the control word `w`, so that the very next step runs it: `rst` is 0 at that step and a reset step has happened
before it. Nothing else changes; the other inputs stay as they are (log 6). -/
def State.withFetchWord (s : State) (nbits w : Nat) : State :=
  { s with
    stepReg := controlWord nbits w
    resetSeen := true
    inputs := if rst s then { currentInput s with rst := false } :: s.inputs.tail else s.inputs }

end Sys2Proof.Machine
end

