-- ==== Sys2Proof/Machine/FunctionLevel.lean ====
section
/-!
DEFINITION. The function level: the pure functions of 00_scope.md R8 (a), on unbounded natural numbers. This level is normative
(90_conflicts.md C10); the operations compute in words, and the statements about a transaction say that the two agree.
-/

namespace Sys2Proof.Machine

/-- `IDX(pos) = (pos div 256) mod 256` (40_sine_lut_rom.md R67). -/
def IDX (pos : Nat) : Nat := (pos / fracDiv) % tableLen

/-- `LUT(pos) = MemRead(IDX(pos), 16)`, the document's `approximate_sine` (40_sine_lut_rom.md R68). -/
def LUT (c : Config) (pos : Nat) : Nat := (memRead c (BitVec.ofNat 8 (IDX pos))).toNat

/-- `REDUCE(e) = e mod 2_000_000` (41_phase_accumulator.md R75). -/
def REDUCE (e : Nat) : Nat := e % outerPeriod

/-- `RESCALE(r) = (r * 32768) div 2_000_000` (41_phase_accumulator.md R76). -/
def RESCALE (r : Nat) : Nat := (r * angFullScale) / outerPeriod

/-- `PHASE(e) = RESCALE(REDUCE(e))` (41_phase_accumulator.md R77). -/
def PHASE (e : Nat) : Nat := RESCALE (REDUCE e)

/-- `MUX(sel, f)` (42_mux_and_scaler.md R82). -/
def MUX (sel : Bool) (f : Nat) : Nat := if sel then f else modRate

/-- `SCALE(sel, t, f) = t * MUX(sel, f)` (42_mux_and_scaler.md R83). -/
def SCALE (sel : Bool) (t f : Nat) : Nat := t * MUX sel f

/-- `FMOD(m) = 1000 + ((1000 * m) div 32768)` (43_fixed_point_modulator.md R92, R93). -/
def FMOD (m : Nat) : Nat := f1 + ((f2 - f1) * m) / angFullScale

/-- `DUTYMAP(s) = (s * DUTY_NUM) div DUTY_DEN` (44_pwm_duty_mapper.md R98). -/
def DUTYMAP (c : Config) (s : Nat) : Nat := (s * c.dutyNum) / c.dutyDen

/-- `MAG(e) = LUT(PHASE(e) * 4)` (45_sample_transaction.md R105). -/
def MAG (c : Config) (e : Nat) : Nat := LUT c (SCALE false (PHASE e) 0)

/-- `FREQOF(e) = FMOD(MAG(e))` (45_sample_transaction.md R105). -/
def FREQOF (c : Config) (e : Nat) : Nat := FMOD (MAG c e)

/-- `SIREN(e)`, the document's `siren_sample` (45_sample_transaction.md R104). -/
def SIREN (c : Config) (e : Nat) : Nat := LUT c (SCALE true (PHASE e) (FREQOF c e))

/-- `DUTYOF(e) = DUTYMAP(SIREN(e))` (45_sample_transaction.md R105). -/
def DUTYOF (c : Config) (e : Nat) : Nat := DUTYMAP c (SIREN c e)

end Sys2Proof.Machine
end

