-- ==== Sys2Proof/WellFormed.lean ====
section
/-!
DEFINITION. Well-formedness: of a control word (30_encoding.md R64), of an operation, and of the sine table a configuration is built
with (20_memory.md R38, constraints T-a to T-e; T-a, exactly 256 entries, is the type `SineTable` itself).
-/

namespace Sys2Proof

/-- A control word is well formed when it is no reserved code: `op` is 0 to 4 (30_encoding.md R59, R64). -/
def ControlWord.wf (op : ControlWord) : Bool := decide (op.toNat ≤ 4)

/-- An operation is well formed when its control word is. It has no operand that could be out of range (30_encoding.md R58), so
every operation is. -/
def Instr.wf (i : Instr) : Bool := (encode i).wf

/-- T-b: every entry is in `[0, 65534]` (20_memory.md R38). -/
def SineTable.entriesInRange (tab : SineTable) : Bool := tab.toList.all (fun w => decide (w.toNat ≤ sampleMax))

/-- T-c: entry 0 is 32767 (20_memory.md R38). -/
def SineTable.startsAtMid (tab : SineTable) : Bool := tab[0] == 32767#16

/-- T-d: entry 128 is 32767 (20_memory.md R38). -/
def SineTable.midAtHalf (tab : SineTable) : Bool := tab[128] == 32767#16

/-- T-e: entry 64 is in `[65524, 65534]` (20_memory.md R38; 90_conflicts.md C3). -/
def SineTable.peakAtQuarter (tab : SineTable) : Bool :=
  decide (65524 ≤ tab[64].toNat ∧ tab[64].toNat ≤ 65534)

/-- The table meets T-a to T-e: an admissible `SINE_TABLE` (20_memory.md R38). T-f is left out: "Only T-a to T-e are
exact enough to be premises of a proof." -/
def SineTable.admissible (tab : SineTable) : Bool :=
  tab.entriesInRange && tab.startsAtMid && tab.midAtHalf && tab.peakAtQuarter

end Sys2Proof
end

