-- ==== Sys2Proof/Safety.lean ====
section
/-!
DEFINITION. What claims about runs are stated with: a run of several steps, what the event history says (10_state.md R17), and the invariants
of a run.
-/

namespace Sys2Proof.Machine

/-- `n` steps from `s`, stopping at the first fault or refusal. -/
def runSteps : Nat → State → Host.Outcome State Fault Refusal
  | 0, s => .next s
  | n + 1, s =>
    match step s with
    | .next t => runSteps n t
    | .fault r => .fault r
    | .refused r => .refused r

/-- `rst` is 0 at each of the next `n` steps. -/
def resetFree (n : Nat) (s : State) : Bool := (s.inputs.take n).all (fun i => !i.rst)

/-- `rst` is 1 at each of the next `n` steps. -/
def resetHeld (n : Nat) (s : State) : Bool := decide (n ≤ s.inputs.length) && (s.inputs.take n).all (fun i => i.rst)

/-! ### What the event history says -/

/-- The sampled input of the transaction in progress, followed over one event. -/
def trackSample : Option Nat → Event → Option Nat
  | _, .sampled e => some e
  | _, .forwarded _ _ => none
  | _, .reset => none

/-- The sampled input whose transaction is in progress at the end of the history. -/
def pendingSample (h : List Event) : Option Nat := h.foldl trackSample none

/-- The latest forwarded pair since the latest reset, followed over one event. -/
def trackForwarded : Option (Word × Nat) → Event → Option (Word × Nat)
  | p, .sampled _ => p
  | _, .forwarded s d => some (s, d)
  | _, .reset => none

/-- The pair most recently forwarded since the latest reset step, if there is one. -/
def lastForwarded (h : List Event) : Option (Word × Nat) := h.foldl trackForwarded none

/-- Every `forwarded(s, d)` of the history has `s = SIREN(e)` and `d = DUTYOF(e)` for the `e` of the `sampled` event of its own transaction
(45_sample_transaction.md R113, R115), with one `forwarded` at most for each `sampled`. `p` is the sample in progress before the list. -/
def explained (c : Config) : Option Nat → List Event → Bool
  | _, [] => true
  | none, .sampled e :: h => explained c (some e) h
  | some _, .sampled _ :: _ => false
  | _, .reset :: h => explained c none h
  | some e, .forwarded s d :: h => s.toNat == SIREN c e && d == DUTYOF c e && explained c none h
  | none, .forwarded _ _ :: _ => false

/-- The `forwarded` events, in order. -/
def forwardedOf : List Event → List (Nat × Nat)
  | [] => []
  | .forwarded s d :: h => (s.toNat, d) :: forwardedOf h
  | .sampled _ :: h => forwardedOf h
  | .reset :: h => forwardedOf h

/-- The inputs of the `sampled` events whose transaction was completed, in order: those not "abandoned by reset" (45_sample_transaction.md
R108, R113) and not still in progress. -/
def completedSamples : Option Nat → List Event → List Nat
  | _, [] => []
  | _, .sampled e :: h => completedSamples (some e) h
  | _, .reset :: h => completedSamples none h
  | some e, .forwarded _ _ :: h => e :: completedSamples none h
  | none, .forwarded _ _ :: h => completedSamples none h

/-! ### Invariants -/

/-- The block has been reset and `STEP` selects an operation (10_state.md R24). -/
def Legal (s : State) : Prop := s.resetSeen = true ∧ s.stepReg.wf = true

/-- The coherence of a transaction: what the registers hold while the transaction that sampled `e` is at a given `STEP`. -/
structure Coherent (s : State) : Prop where
  /-- At `STEP` 0 no transaction is in progress. -/
  at0 : s.stepReg = 0 → pendingSample s.history = none
  at1 : s.stepReg = 1 → ∃ e, pendingSample s.history = some e ∧ s.regT.toNat = PHASE e
  at2 : s.stepReg = 2 → ∃ e, pendingSample s.history = some e ∧ s.regT.toNat = PHASE e ∧ s.regM.toNat = MAG s.config e
  at3 : s.stepReg = 3 → ∃ e, pendingSample s.history = some e ∧ s.regT.toNat = PHASE e ∧ s.freq.toNat = FREQOF s.config e
  at4 : s.stepReg = 4 → ∃ e, pendingSample s.history = some e ∧ s.sample.toNat = SIREN s.config e

/-- What the output ports show (10_state.md R15, R23, 70_reset_and_hazards.md R136, R141): before the first result since reset, `duty_valid` is 0
and `duty` is 0; afterwards `duty` is the one last forwarded, and `sample` is the one forwarded with it except at `STEP` 4. -/
structure PortsShowLastResult (s : State) : Prop where
  before : lastForwarded s.history = none → s.valid = false ∧ s.duty = 0 ∧ (s.stepReg ≠ 4 → s.sample = 0)
  after : ∀ w d, lastForwarded s.history = some (w, d) → s.valid = true ∧ s.duty = d ∧ (s.stepReg ≠ 4 → s.sample = w)

/-- The invariant of the running block. -/
structure TransactionInv (s : State) : Prop where
  legal : Legal s
  explained : explained s.config none s.history = true
  coherent : Coherent s
  ports : PortsShowLastResult s

/-- The register ranges of 10_state.md R19 to R22 for a table that meets T-b, from the operation that writes each register on. -/
structure RangeInv (s : State) : Prop where
  table : s.config.sineTable.entriesInRange = true
  m : 2 ≤ s.stepReg.toNat → s.regM.toNat ≤ sampleMax
  freq : 3 ≤ s.stepReg.toNat → 1000 ≤ s.freq.toNat ∧ s.freq.toNat ≤ 2999
  sample : s.sample.toNat ≤ sampleMax
  duty : s.duty ≤ (sampleMax * s.config.dutyNum) / s.config.dutyDen

/-- `DUTY` fits the `DUTY_W` bits of its register (10_state.md R22, 44_pwm_duty_mapper.md R100). -/
def DutyFits (s : State) : Prop := s.duty < 2 ^ dutyW s.config

end Sys2Proof.Machine
end

