-- ==== Sys2Proof/Certificates/Slice0/Obligations.lean ====
section
/-!
DEFINITION. The statements for the provers. Each docstring names the rule or the section of spec/ it formalises.
-/

open Sys2Proof Sys2Proof.Machine

/-! ### The control word -/

/-- 30_encoding.md R59: the five codes select the five operations, and 101, 110, 111 are reserved; by the table's own numbering too. -/
def Obligations.ControlWordSelectsOperation : Prop :=
  decode 0b000 = .ok .phase ∧ decode 0b001 = .ok .lutm ∧ decode 0b010 = .ok .fmod ∧ decode 0b011 = .ok .lutc ∧
  decode 0b100 = .ok .duty ∧ decode 0b101 = .error (.reservedCode 5) ∧ decode 0b110 = .error (.reservedCode 6) ∧
  decode 0b111 = .error (.reservedCode 7) ∧
  decodeTableWord 8 0 = some .phase ∧ decodeTableWord 8 1 = some .lutm ∧ decodeTableWord 8 2 = some .fmod ∧
  decodeTableWord 8 3 = some .lutc ∧ decodeTableWord 8 4 = some .duty ∧ decodeTableWord 8 5 = none ∧
  decodeTableWord 8 6 = none ∧ decodeTableWord 8 7 = none

/-- 30_encoding.md section 4: encoding and decoding are inverse to each other, and no two rows of the operation table overlap. -/
def Obligations.DecodeInvertsEncode : Prop :=
  (∀ i, decode (encode i) = .ok i) ∧ (∀ w i, decode w = .ok i → w = encode i) ∧
  (∀ w : ControlWord, ∀ r₁ ∈ opTable, ∀ r₂ ∈ opTable, r₁.hits w = true → r₂.hits w = true → r₁ = r₂)

/-! ### The step -/

/-- 10_state.md section 1: a step with `rst` = 0 of a block that has been reset is the operation `STEP` decodes to, after which the next step's
inputs come to the front (the list of inputs is the model's own, log 2). -/
def Obligations.StepRunsSelectedOperation : Prop :=
  ∀ (s : State) (i : Instr), rst s = false → s.resetSeen = true → decode s.stepReg = .ok i →
    (∀ t, exec i s = .next t → step s = .next { t with inputs := s.inputs.tail }) ∧
    (∀ r, exec i s = .fault r → step s = .fault r) ∧ (∀ r, exec i s = .refused r → step s = .refused r)

/-- 30_encoding.md section 2: a control word placed where the step takes its next one from is the operation that runs (`withFetchWord` is the
model's own, log 6). -/
def Obligations.PlacedWordRuns : Prop :=
  ∀ (s : State) (nbits w : Nat) (i : Instr), decodeTableWord nbits w = some i →
    (∀ t, exec i (s.withFetchWord nbits w) = .next t → step (s.withFetchWord nbits w) = .next { t with inputs := s.inputs.tail }) ∧
    (s.withFetchWord nbits w).regT = s.regT ∧ (s.withFetchWord nbits w).regM = s.regM ∧ (s.withFetchWord nbits w).freq = s.freq ∧
    (s.withFetchWord nbits w).sample = s.sample ∧ elapsedMicros (s.withFetchWord nbits w) = elapsedMicros s

/-- 60_exceptions.md R117: no operation raises anything, for any input and any register contents. -/
def Obligations.EveryOperationCompletes : Prop :=
  ∀ (i : Instr) (s : State), ∃ t, exec i s = .next t

/-- 10_state.md R13: from a legal state every step goes on to a legal state, by the operation selected by `STEP` or, when `rst` is 1, by the
reset. -/
def Obligations.SequencerAlwaysSteps : Prop :=
  ∀ s, Legal s → ∃ t, step s = .next t ∧ Legal t ∧
    (rst s = true → t = { resetStep s with inputs := s.inputs.tail }) ∧
    (rst s = false → ∃ i u, decode s.stepReg = .ok i ∧ exec i s = .next u ∧ t = { u with inputs := s.inputs.tail })

/-- 10_state.md R13 and 45_sample_transaction.md R115 over runs: a legal state runs for any number of steps, under any inputs. -/
def Obligations.LegalRunsNeverStop : Prop :=
  ∀ n s, Legal s → ∃ t, runSteps n s = .next t ∧ Legal t

/-- 70_reset_and_hazards.md R131: the reset step from any state. Nothing is said of `T`, `M` and `FREQ`, which it leaves unspecified (free values,
log 4); the value of `elapsed_micros` makes no difference. -/
def Obligations.ResetStepState : Prop :=
  ∀ s, rst s = true →
    (∃ t, step s = .next t ∧ t.stepReg = 0 ∧ t.valid = false ∧ t.duty = 0 ∧ t.sample = 0 ∧
      t.history = s.history ++ [.reset] ∧ t.config = s.config ∧ t.resetSeen = true ∧ t.inputs = s.inputs.tail) ∧
    (∀ v, step { s with inputs := { rst := true, elapsedMicros := v } :: s.inputs.tail } = step s)

/-- 10_state.md R30: the values after reset, in `State.reset` and after a reset step alike; the ROM and the parameters are unchanged. -/
def Obligations.ResetValues : Prop :=
  (State.reset.stepReg = 0 ∧ State.reset.valid = false ∧ State.reset.duty = 0 ∧ State.reset.sample = 0 ∧
    decode State.reset.stepReg = .ok .phase) ∧
  (∀ s, rst s = true → ∃ t, step s = .next t ∧ t.stepReg = State.reset.stepReg ∧ t.valid = State.reset.valid ∧
    t.duty = State.reset.duty ∧ t.sample = State.reset.sample ∧ t.config = s.config)

/-- 70_reset_and_hazards.md R132: before the first reset step the sequencer has no step; `rst` is the only source of a reset; held for any number
of steps it keeps the reset state. -/
def Obligations.ResetComesFromThePortOnly : Prop :=
  (∀ s, s.resetSeen = false → rst s = false → step s = .fault .noStepBeforeReset) ∧
  (∀ s t, rst s = false → step s = .next t → t.history.count .reset = s.history.count .reset ∧ t.resetSeen = s.resetSeen) ∧
  (∀ n s, resetHeld (n + 1) s = true → ∃ t, runSteps (n + 1) s = .next t ∧ t.resetSeen = true ∧ t.stepReg = 0 ∧ t.valid = false ∧
    t.duty = 0 ∧ t.sample = 0 ∧ t.history = s.history ++ List.replicate (n + 1) .reset)

/-- 30_encoding.md R64: a state with `STEP` in 5, 6, 7 is refused a step, and no step of any kind leads to one. -/
def Obligations.ReservedCodesAreRefusedAndUnreachable : Prop :=
  (∀ s, rst s = false → s.resetSeen = true → (s.stepReg = 5 ∨ s.stepReg = 6 ∨ s.stepReg = 7) →
    step s = .refused (.reservedStepCode s.stepReg)) ∧
  (∀ s t, step s = .next t → t.stepReg.toNat ≤ 4)

/-- 45_sample_transaction.md R107: every operation advances `STEP` modulo 5, a reset step sets it to 0, and nothing else of the state influences
it. -/
def Obligations.StepCounterAdvances : Prop :=
  (∀ i s t, exec i s = .next t → t.stepReg.toNat = ((encode i).toNat + 1) % 5) ∧
  (∀ s t, step s = .next t → rst s = false → t.stepReg.toNat = (s.stepReg.toNat + 1) % 5) ∧
  (∀ s t, step s = .next t → rst s = true → t.stepReg = 0)

/-- 20_memory.md R36: no operation and no reset step changes the ROM (nor any other parameter of the configuration). -/
def Obligations.RomIsNeverWritten : Prop :=
  ∀ s t, step s = .next t → t.config = s.config

/-- 10_state.md R23: `VALID` is set by every `DUTY` operation, cleared by a reset step only, sticky, read by no operation, and shown on
`duty_valid`. -/
def Obligations.ValidIsSticky : Prop :=
  (∀ s t, step s = .next t → (portDutyValid t = true ↔ rst s = false ∧ (s.stepReg = 4 ∨ portDutyValid s = true))) ∧
  (∀ i s b t, i ≠ .duty → exec i s = .next t → t.valid = s.valid ∧ exec i { s with valid := b } = .next { t with valid := b }) ∧
  (∀ s b t, exec .duty s = .next t → t.valid = true ∧ exec .duty { s with valid := b } = .next t)

/-- 10_state.md sections 1 to 3 (the "Written only by" of R18 to R22, the "changes only when that register is written" of R15): the frame of a
step that is no reset step. -/
def Obligations.EachRegisterHasOneWriter : Prop :=
  ∀ s t, step s = .next t → rst s = false →
    (s.stepReg ≠ 0 → t.regT = s.regT ∧ t.draws = s.draws) ∧ (s.stepReg ≠ 1 → t.regM = s.regM) ∧ (s.stepReg ≠ 2 → t.freq = s.freq) ∧
    (s.stepReg ≠ 3 → portSample t = portSample s) ∧
    (s.stepReg ≠ 4 → portDuty t = portDuty s ∧ portDutyValid t = portDutyValid s) ∧
    (s.stepReg ≠ 0 → s.stepReg ≠ 4 → t.history = s.history) ∧ t.config = s.config ∧ t.inputs = s.inputs.tail

/-- 10_state.md R17: the events a step records, in step order, and that no step reads the history. -/
def Obligations.HistoryRecordsAndIsNeverRead : Prop :=
  ∀ s t h, step s = .next t →
    ∃ k, t.history = s.history ++ k ∧ step { s with history := h } = .next { t with history := h ++ k } ∧
      (rst s = true → k = [.reset]) ∧ (rst s = false → s.stepReg = 0 → k = [.sampled (elapsedMicros s)]) ∧
      (rst s = false → s.stepReg = 4 → k = [.forwarded s.sample t.duty]) ∧
      (rst s = false → s.stepReg ≠ 0 → s.stepReg ≠ 4 → k = [])

/-- 70_reset_and_hazards.md R139: only the `PHASE` step reads `elapsed_micros`; what the host presents at any other step makes no difference. -/
def Obligations.InputSampledOnlyByPhase : Prop :=
  ∀ s v, s.stepReg ≠ 0 ∨ rst s = true →
    step { s with inputs := { rst := rst s, elapsedMicros := v } :: s.inputs.tail } = step s

/-! ### The five operations: result, completion and frame, for every state -/

/-- 41_phase_accumulator.md R78. The port has `ELAPSED_W` bits, and a number that fits it is sampled as it is; no other operation depends on the
inputs. -/
def Obligations.PhaseOperation : Prop :=
  ∀ s, (∃ t, exec .phase s = .next t ∧ t.regT.toNat = ((elapsedMicros s % 2000000) * 32768) / 2000000 ∧ t.regT.toNat ≤ 32767 ∧
      (elapsedMicros s = 250000 → t.regT = 4096) ∧
      t = { s with regT := t.regT, stepReg := 1, draws := t.draws, history := s.history ++ [.sampled (elapsedMicros s)] }) ∧
    (∀ v, (currentInput s).elapsedMicros = some v → v ≤ 2 ^ s.config.elapsedW - 1 → elapsedMicros s = v) ∧
    (∀ i v t, i ≠ .phase → exec i s = .next t → exec i { s with inputs := v } = .next { t with inputs := v })

/-- 42_mux_and_scaler.md R85. -/
def Obligations.LutmOperation : Prop :=
  ∀ s, (∃ t, exec .lutm s = .next t ∧ t.regM = memRead s.config (s.regT.extractLsb' 6 8) ∧
      t.regM.toNat = LUT s.config (s.regT.toNat * 4) ∧ t = { s with regM := t.regM, stepReg := 2 } ∧
      (s.regT = 0 → s.config.sineTable.admissible = true → t.regM = 32767) ∧
      (s.regT = 4096 → s.config.sineTable = sineTableDefault → t.regM = 65534)) ∧
    s.regT.toNat * 4 ≤ 131068 ∧
    (s.regT = 0 → IDX (s.regT.toNat * 4) = 0) ∧ (s.regT = 16383 → IDX (s.regT.toNat * 4) = 255) ∧
    (s.regT = 16384 → IDX (s.regT.toNat * 4) = 0) ∧ (s.regT = 32767 → IDX (s.regT.toNat * 4) = 255) ∧
    (s.regT = 4096 → IDX (s.regT.toNat * 4) = 64)

/-- 43_fixed_point_modulator.md R95. -/
def Obligations.FmodOperation : Prop :=
  ∀ s, ∃ t, exec .fmod s = .next t ∧ t.freq.toNat = 1000 + (1000 * s.regM.toNat) / 32768 ∧
    1000 ≤ t.freq.toNat ∧ t.freq.toNat ≤ 2999 ∧ t = { s with freq := t.freq, stepReg := 3 } ∧
    (s.regM = 0 → t.freq = 1000) ∧ (s.regM = 65534 → t.freq = 2999) ∧ (s.regM = 65535 → t.freq = 2999) ∧
    (s.regM = 32767 → t.freq = 1999)

/-- 42_mux_and_scaler.md R86. -/
def Obligations.LutcOperation : Prop :=
  ∀ s, ∃ t, exec .lutc s = .next t ∧ t.sample.toNat = LUT s.config (s.regT.toNat * s.freq.toNat) ∧
    t = { s with sample := t.sample, stepReg := 4 } ∧
    (s.freq.toNat ≤ 2999 → s.regT.toNat * s.freq.toNat ≤ 98268233) ∧
    (s.regT = 0 → s.config.sineTable.admissible = true → t.sample = 32767) ∧
    (s.regT = 4096 → s.freq = 2999 → IDX (s.regT.toNat * s.freq.toNat) = 112 ∧ (s.config.sineTable = sineTableDefault → t.sample = 45306))

/-- 44_pwm_duty_mapper.md R101; the port holds the value until the next `DUTY` step or a reset. -/
def Obligations.DutyOperation : Prop :=
  (∀ s, ∃ t, exec .duty s = .next t ∧ t.duty = (s.sample.toNat * s.config.dutyNum) / s.config.dutyDen ∧
    t = { s with duty := t.duty, valid := true, stepReg := 0, history := s.history ++ [.forwarded s.sample t.duty] } ∧
    (s.config.dutyNum = 100 → s.config.dutyDen = 65534 →
      (s.sample = 0 → t.duty = 0) ∧ (s.sample = 655 → t.duty = 0) ∧ (s.sample = 656 → t.duty = 1) ∧ (s.sample = 32767 → t.duty = 50) ∧
      (s.sample = 65533 → t.duty = 99) ∧ (s.sample = 65534 → t.duty = 100) ∧ (s.sample = 45306 → t.duty = 69))) ∧
  (∀ s t, step s = .next t → rst s = false → s.stepReg ≠ 4 → portDuty t = portDuty s ∧ portDutyValid t = portDutyValid s)

/-! ### The functions and the widths -/

/-- 40_sine_lut_rom.md R67: the three forms of the index agree, for every position; the bit slice is the hardware's. -/
def Obligations.IndexFormsAgree : Prop :=
  (∀ p, IDX p = (p / 256) % 256 ∧ IDX p = (p % 65536) / 256 ∧ IDX p ≤ 255) ∧ (∀ p : BitVec 27, (idx p).toNat = IDX p.toNat) ∧
  IDX 0 = 0 ∧ IDX 255 = 0 ∧ IDX 256 = 1 ∧ IDX 65535 = 255 ∧ IDX 65536 = 0 ∧ IDX 16384 = 64

/-- 40_sine_lut_rom.md R68 and R71: a lookup is the table entry at the truncated index, and is constant on each block of 256 positions. -/
def Obligations.LookupIsTheIndexedEntry : Prop :=
  (∀ c p, LUT c p = (c.sineTable[(p / 256) % 256]'(Nat.mod_lt _ (by decide))).toNat) ∧
  (∀ c, c.sineTable.admissible = true → LUT c 0 = 32767) ∧ (∀ c p, LUT c p = LUT c (p - p % 256))

/-- 41_phase_accumulator.md, the functions `REDUCE` and `RESCALE` (R75, R76): reduction first, then the exact product, then the floor division; with the
corner cases. The form `(r * 256) div 15625` is the spec's own inference inside R76, so the statement is a derived one. -/
def Obligations.ReductionAndRescaling : Prop :=
  (∀ e, REDUCE e = e % 2000000 ∧ REDUCE e ≤ 1999999) ∧ (∀ r, RESCALE r = (r * 32768) / 2000000 ∧ RESCALE r = (r * 256) / 15625) ∧
  (∀ r, r ≤ 1999999 → RESCALE r ≤ 32767) ∧
  REDUCE 0 = 0 ∧ REDUCE 1999999 = 1999999 ∧ REDUCE 2000000 = 0 ∧ REDUCE (2 ^ 32 - 1) = 967295 ∧ REDUCE (2 ^ 64 - 1) = 1551615 ∧
  REDUCE 3123456 = 1123456 ∧ RESCALE 0 = 0 ∧ RESCALE 61 = 0 ∧ RESCALE 62 = 1 ∧ RESCALE 1999938 = 32766 ∧ RESCALE 1999939 = 32767 ∧
  RESCALE 1999999 = 32767 ∧ RESCALE 250000 = 4096

/-- 41_phase_accumulator.md section on `PHASE` (the spec's own inference in R77): a non-decreasing staircase that takes every value of `[0, 32767]` on a run of
61 or 62 consecutive counts. -/
def Obligations.PhaseIsAStaircase : Prop :=
  (∀ e e', e ≤ e' → e' < 2000000 → PHASE e ≤ PHASE e') ∧
  (∀ t, t ≤ 32767 → ∃ a n, (n = 61 ∨ n = 62) ∧ a + n ≤ 2000000 ∧ ∀ e, e < 2000000 → (PHASE e = t ↔ a ≤ e ∧ e < a + n))

/-- 42_mux_and_scaler.md R82 and R83: the word-level multiplexer and multiplier give the exact product of 27 bits, in both passes. -/
def Obligations.ScalerIsExact : Prop :=
  (∀ f : BitVec 12, mult false f = 4 ∧ mult true f = f) ∧
  (∀ sel (t : BitVec 15) (f : BitVec 12), (pos t (mult sel f)).toNat = t.toNat * (if sel then f.toNat else 4) ∧
    (pos t (mult sel f)).toNat = SCALE sel t.toNat f.toNat) ∧
  (∀ t (f : BitVec 12), (pos t (mult false f)).toNat ≤ 131068 ∧ (f.toNat ≤ 2999 → (pos t (mult true f)).toNat ≤ 98268233)) ∧
  (∀ sel (f : BitVec 12), pos 0 (mult sel f) = 0) ∧ (pos 32767 (mult true 2999)).toNat = 98268233 ∧
  (pos 4096 (mult true 2999)).toNat = 12283904

/-- 43_fixed_point_modulator.md R93 and R94: the frequency value, its range `[1000, 2999]` with both ends reached, and its values. -/
def Obligations.FrequencyFunction : Prop :=
  (∀ m, FMOD m = 1000 + (1000 * m) / 32768) ∧ (∀ m m', m ≤ m' → FMOD m ≤ FMOD m') ∧
  (∀ m, m ≤ 65534 → 1000 ≤ FMOD m ∧ FMOD m ≤ 2999) ∧ FMOD 0 = 1000 ∧ FMOD 65534 = 2999 ∧
  FMOD 32 = 1000 ∧ FMOD 33 = 1001 ∧ FMOD 32767 = 1999 ∧ FMOD 32768 = 2000 ∧ FMOD 65535 = 2999 ∧ FMOD 55937 = 2707

/-- 44_pwm_duty_mapper.md R98: the duty function, non-decreasing, 0 at 0, with a divisor that is never 0. -/
def Obligations.DutyFunction : Prop :=
  ∀ c : Config, 1 ≤ c.dutyDen ∧ (∀ s, DUTYMAP c s = (s * c.dutyNum) / c.dutyDen) ∧ DUTYMAP c 0 = 0 ∧
    (∀ s s', s ≤ s' → DUTYMAP c s ≤ DUTYMAP c s')

/-- 44_pwm_duty_mapper.md and 70_reset_and_hazards.md (R102 and R144, the spec's own inferences): the exact form with `N` steps stays within `[0, N]` and
reaches `N` only at the peak; a word of 65535 does not exceed `N` either. `N` = 0 is left to the range: there the duty is always 0 = `N`. -/
def Obligations.ExactDutyRange : Prop :=
  ∀ c : Config, c.dutyDen = 65534 →
    (∀ s, s ≤ 65534 → DUTYMAP c s ≤ c.dutyNum) ∧
    (1 ≤ c.dutyNum → ∀ s, s ≤ 65534 → (DUTYMAP c s = c.dutyNum ↔ s = 65534)) ∧
    (c.dutyNum < 65534 → DUTYMAP c 65535 = c.dutyNum)

/-- 44_pwm_duty_mapper.md R100: product and quotient fit their widths for every 16-bit sample, and the widths of the named parameter sets. -/
def Obligations.DutyWidthsHold : Prop :=
  (∀ c s, (duProd c s).toNat = s.toNat * c.dutyNum ∧ (duQ c s).toNat = (s.toNat * c.dutyNum) / c.dutyDen) ∧
  (∀ c n, 1 ≤ n → (dutyW c ≤ n ↔ (65535 * c.dutyNum) / c.dutyDen < 2 ^ n)) ∧
  (∀ c : Config, c.dutyNum = 100 → c.dutyDen = 65534 → 16 + bits c.dutyNum = 23 ∧ dutyW c = 7) ∧
  (∀ c : Config, c.dutyNum = 50 → c.dutyDen = 32768 → 16 + bits c.dutyNum = 22 ∧ dutyW c = 7) ∧
  (∀ c : Config, c.dutyNum = 255 → c.dutyDen = 65534 → dutyW c = 8) ∧ (∀ c : Config, c.dutyNum = 1023 → c.dutyDen = 65534 → dutyW c = 10)

/-- 10_state.md R27: every combinational value is the exact number of its definition, within its maximum, for every input and every register
content (with the maxima that need it under a table that meets T-b or a `FREQ` of at most 2999). -/
def Obligations.NoWidthTruncates : Prop :=
  (∀ e, (eRed e).toNat = e % 2000000 ∧ (eRed e).toNat ≤ 1999999 ∧ (phProd (eRed e)).toNat = (e % 2000000) * 32768 ∧
    (phProd (eRed e)).toNat ≤ 65535967232 ∧ (tQuot (phProd (eRed e))).toNat = ((e % 2000000) * 32768) / 2000000) ∧
  (∀ sel (f : BitVec 12), (mult sel f).toNat = if sel then f.toNat else 4) ∧
  (∀ (t : BitVec 15) (m : BitVec 12), (pos t m).toNat = t.toNat * m.toNat ∧ (m.toNat ≤ 2999 → (pos t m).toNat ≤ 98268233) ∧
    (pos t (mult false m)).toNat ≤ 131068) ∧
  (∀ p : BitVec 27, (idx p).toNat = (p.toNat / 256) % 256) ∧
  (∀ c p, romQ c p = memRead c (idx p) ∧ (c.sineTable.entriesInRange = true → (romQ c p).toNat ≤ 65534)) ∧
  (∀ m : Word, (fmProd m).toNat = 1000 * m.toNat ∧ (fmProd m).toNat ≤ 65535000 ∧ (m.toNat ≤ 65534 → (fmProd m).toNat ≤ 65534000) ∧
    (fmQ (fmProd m)).toNat = (1000 * m.toNat) / 32768 ∧ (fmQ (fmProd m)).toNat ≤ 1999 ∧
    (freqSum (fmQ (fmProd m))).toNat = 1000 + (1000 * m.toNat) / 32768 ∧ (freqSum (fmQ (fmProd m))).toNat ≤ 2999) ∧
  (∀ (c : Config) (s : Word), (duProd c s).toNat = s.toNat * c.dutyNum ∧ (duQ c s).toNat = (s.toNat * c.dutyNum) / c.dutyDen ∧
    (c.dutyNum = 100 → (duProd c s).toNat ≤ 6553500 ∧ (s.toNat ≤ 65534 → (duProd c s).toNat ≤ 6553400) ∧
      (c.dutyDen = 65534 → (duQ c s).toNat ≤ 100)))

/-- 20_memory.md section 2 (the spec's own inferences in R41): the default table is admissible, antisymmetric over the half period, mirror
symmetric, and strictly monotonic between its extremes. -/
def Obligations.DefaultTableShape : Prop :=
  sineTableDefault.admissible = true ∧
  (∀ i : Fin 128, (sineTableDefault[i.val]'(by omega)).toNat + (sineTableDefault[i.val + 128]'(by omega)).toNat = 65534) ∧
  (∀ i : Fin 256, sineTableDefault[i.val] = sineTableDefault[(384 - i.val) % 256]'(Nat.mod_lt _ (by decide))) ∧
  (∀ i : Fin 128, (sineTableDefault[(i.val + 192) % 256]'(Nat.mod_lt _ (by decide))).toNat <
    (sineTableDefault[(i.val + 193) % 256]'(Nat.mod_lt _ (by decide))).toNat) ∧
  sineTableDefault[64] = 65534 ∧ sineTableDefault[192] = 0 ∧ sineTableDefault[63] = 65524 ∧ sineTableDefault[65] = 65524 ∧
  sineTableDefault[255] = 31963 ∧ sineTableDefault[1] = 33571

/-! ### The whole sample -/

/-- 45_sample_transaction.md section 1 (R109, the spec's own inference): the ranges, for every table that meets T-b. -/
def Obligations.RangesOfTheSample : Prop :=
  ∀ (c : Config) (e : Nat), c.sineTable.entriesInRange = true →
    SIREN c e ≤ 65534 ∧ MAG c e ≤ 65534 ∧ 1000 ≤ FREQOF c e ∧ FREQOF c e ≤ 2999 ∧ DUTYOF c e ≤ (65534 * c.dutyNum) / c.dutyDen

/-- 40_sine_lut_rom.md R70, 41_phase_accumulator.md R79, 45_sample_transaction.md R110 (the spec's own inferences): periodicity in the position and in time,
as mathematical integers. -/
def Obligations.Periodicity : Prop :=
  (∀ c p k, LUT c (p + 65536 * k) = LUT c p) ∧ (∀ e k, PHASE (e + 2000000 * k) = PHASE e) ∧
  (∀ c e k, SIREN c (e + 2000000 * k) = SIREN c e ∧ DUTYOF c (e + 2000000 * k) = DUTYOF c e)

/-- 41_phase_accumulator.md and 70_reset_and_hazards.md section 3 (R79, R138, the spec's own inferences): no counter width is a multiple of the outer period, and
the jump at the wrap for 64 and 32 bits. -/
def Obligations.CounterWrapBreaksThePeriod : Prop :=
  (∀ w : Nat, 2 ^ w % 2000000 ≠ 0) ∧ (∀ w : Nat, REDUCE (2 ^ w - 1) ≠ 1999999) ∧
  REDUCE (2 ^ 64 - 1) = 1551615 ∧ REDUCE (2 ^ 32 - 1) = 967295

/-- 45_sample_transaction.md R112: the value at time zero, for every admissible table and every time of phase 0. -/
def Obligations.ValueAtTimeZero : Prop :=
  ∀ (c : Config) (e : Nat), c.sineTable.admissible = true →
    (PHASE e = 0 ↔ e % 2000000 ≤ 61) ∧
    (PHASE e = 0 → MAG c e = 32767 ∧ FREQOF c e = 1999 ∧ SIREN c e = 32767 ∧
      (c.dutyNum = 100 → c.dutyDen = 65534 → DUTYOF c e = 50) ∧ (c.dutyNum = 50 → c.dutyDen = 32768 → DUTYOF c e = 49))

/-- 45_sample_transaction.md section 3 (R113, the spec's own inference; R114 for the collapsed form): what one transaction computes, whatever the registers
held before it, whatever the host presents during steps 1 to 4, and for every configuration. -/
def Obligations.TransactionResult : Prop :=
  ∀ s, s.resetSeen = true → s.stepReg = 0 → resetFree 5 s = true →
    ∃ t, runSteps 5 s = .next t ∧
      t.regT.toNat = PHASE (elapsedMicros s) ∧ t.regM.toNat = MAG s.config (elapsedMicros s) ∧
      t.freq.toNat = FREQOF s.config (elapsedMicros s) ∧ t.sample.toNat = SIREN s.config (elapsedMicros s) ∧
      t.duty = DUTYOF s.config (elapsedMicros s) ∧ t.valid = true ∧ t.stepReg = 0 ∧ t.resetSeen = true ∧ t.config = s.config ∧
      t.history = s.history ++ [.sampled (elapsedMicros s), .forwarded t.sample t.duty] ∧ t.inputs = s.inputs.drop 5

/-- 10_state.md section 5 (R29, R32, the spec's own inferences) and 45_sample_transaction.md R111: no state carries information from one transaction to the next. Two
blocks of one configuration that sample the same input at `STEP` 0 show the same ports after their transactions, whatever else differs. -/
def Obligations.NoHiddenState : Prop :=
  ∀ s₁ s₂ t₁ t₂, s₁.config = s₂.config → s₁.stepReg = 0 → s₂.stepReg = 0 → resetFree 5 s₁ = true → resetFree 5 s₂ = true →
    elapsedMicros s₁ = elapsedMicros s₂ → runSteps 5 s₁ = .next t₁ → runSteps 5 s₂ = .next t₂ →
    portDuty t₁ = portDuty t₂ ∧ portDutyValid t₁ = portDutyValid t₂ ∧ portSample t₁ = portSample t₂ ∧
    t₁.regT = t₂.regT ∧ t₁.regM = t₂.regM ∧ t₁.freq = t₂.freq

/-- 70_reset_and_hazards.md sections 1 and 3 (R133, the spec's own inference, and R142): after a reset step and five steps without reset the first result is on
the ports, and not before. `duty_valid` and `duty` are 0 until the `DUTY` step, `sample` is 0 until the `LUTC` step one step earlier, as 42_mux_and_scaler.md R86
and the programs A, C, D and E of 95_test_vectors.md have it (log 10). `u` is the state after the reset step; the input it samples next is the one of the first step
without reset. -/
def Obligations.FirstResultAfterReset : Prop :=
  ∀ s, rst s = true → resetFree 5 { s with inputs := s.inputs.tail } = true →
    ∃ u, step s = .next u ∧
      (∀ k, k ≤ 4 → ∃ t, runSteps k u = .next t ∧ portDutyValid t = false ∧ portDuty t = 0 ∧ (k ≤ 3 → portSample t = 0) ∧
        (k = 4 → (portSample t).toNat = SIREN s.config (elapsedMicros u))) ∧
      (∃ t, runSteps 5 u = .next t ∧ portDutyValid t = true ∧ portDuty t = DUTYOF s.config (elapsedMicros u) ∧
        (portSample t).toNat = SIREN s.config (elapsedMicros u))

/-- 45_sample_transaction.md section 2 (R108): a reset step abandons the transaction in progress, and the next step without reset is a `PHASE` step. -/
def Obligations.ResetAbandonsTheTransaction : Prop :=
  ∀ s, rst s = true → ∃ t, step s = .next t ∧ pendingSample t.history = none ∧ forwardedOf t.history = forwardedOf s.history ∧
    portDuty t = 0 ∧ portDutyValid t = false ∧
    (rst t = false → ∃ u, exec .phase t = .next u ∧ step t = .next { u with inputs := t.inputs.tail })

/-- 70_reset_and_hazards.md section 3 (R141, the spec's own inference): between `LUTC` and `DUTY` the ports show the new sample with the old duty. -/
def Obligations.SampleLeadsDutyByOneStep : Prop :=
  ∀ s, s.resetSeen = true → s.stepReg = 3 → resetFree 2 s = true →
    ∃ t u, step s = .next t ∧ step t = .next u ∧ (portSample t).toNat = LUT s.config (s.regT.toNat * s.freq.toNat) ∧
      portDuty t = portDuty s ∧ portSample u = portSample t ∧ portDuty u = DUTYMAP s.config (portSample t).toNat

/-! ### Invariants and runs -/

/-- 10_state.md section 6: the machine right after reset meets the invariants. `State.reset` is built with the default configuration (log 1). -/
def Obligations.ResetMeetsInvariants : Prop :=
  TransactionInv State.reset ∧ RangeInv State.reset ∧ DutyFits State.reset

/-- 45_sample_transaction.md section 3: every step, of any kind and under any input, keeps the transaction invariant: the history is explained by the function
level, the registers cohere with the sample in progress, and the ports show the last result. -/
def Obligations.StepKeepsTransactionInvariant : Prop :=
  ∀ s t, TransactionInv s → step s = .next t → TransactionInv t

/-- 10_state.md sections 2 and 4 (the ranges of R19 to R22): every step keeps the register ranges, for a table that meets T-b, and `DUTY` always fits its width,
for any table. -/
def Obligations.StepKeepsRegisterRanges : Prop :=
  (∀ s t, RangeInv s → step s = .next t → RangeInv t) ∧ (∀ s t, DutyFits s → step s = .next t → DutyFits t)

/-- 45_sample_transaction.md R115 and R113 (the latter the spec's own inference): in every run that begins with a reset step, from any state and under any inputs, the
sequence of `forwarded` events is the image of the sequence of completed `sampled` events under the function level, in the same order. -/
def Obligations.ForwardedEventsAreImageOfSampled : Prop :=
  ∀ n s t, rst s = true → runSteps (n + 1) s = .next t →
    ∃ h, t.history = s.history ++ .reset :: h ∧ explained s.config none h = true ∧
      forwardedOf h = (completedSamples none h).map (fun e => (SIREN s.config e, DUTYOF s.config e))
end

