-- ==== Sys2Proof/Laws/Datapath.lean ====
section
/-!
SUPPORT. The constants as numerals, the widths (10_state.md R27), and one lemma per combinational value: as a natural number it is the function-level
value, so nothing is truncated.
-/

namespace Sys2Proof

@[simp] theorem f1_eq : f1 = 1000 := rfl
@[simp] theorem f2_eq : f2 = 2000 := rfl
@[simp] theorem modRate_eq : modRate = 4 := rfl
@[simp] theorem outerPeriod_eq : outerPeriod = 2000000 := rfl
@[simp] theorem angFullScale_eq : angFullScale = 32768 := rfl
@[simp] theorem tableLen_eq : tableLen = 256 := rfl
@[simp] theorem posPeriod_eq : posPeriod = 65536 := rfl
@[simp] theorem fracDiv_eq : fracDiv = 256 := rfl
@[simp] theorem sampleMax_eq : sampleMax = 65534 := rfl

end Sys2Proof

namespace Sys2Proof.Machine

/-! ### The function level on numerals -/

theorem IDX_eq (p : Nat) : IDX p = (p / 256) % 256 := rfl
theorem PHASE_eq (e : Nat) : PHASE e = (e % 2000000 * 32768) / 2000000 := rfl
theorem FMOD_eq (m : Nat) : FMOD m = 1000 + (1000 * m) / 32768 := rfl

theorem PHASE_le (e : Nat) : PHASE e ≤ 32767 := by
  rw [PHASE_eq]; omega

/-! ### `bits` -/

theorem lt_two_pow_bits (v : Nat) : v < 2 ^ bits v := by
  unfold bits
  split
  · subst v; decide
  · exact Nat.lt_log2_self

theorem bits_le_of_lt {v n : Nat} (hn : 1 ≤ n) (h : v < 2 ^ n) : bits v ≤ n := by
  unfold bits
  split
  · exact hn
  · rename_i hv
    exact (Nat.log2_lt hv).2 h

/-! ### `phase_accumulator` -/

theorem eRed_toNat (e : Nat) : (eRed e).toNat = e % 2000000 := by
  simp only [eRed, outerPeriod_eq, BitVec.toNat_ofNat]
  omega

theorem phProd_toNat (r : BitVec 21) : (phProd r).toNat = r.toNat * 32768 := by
  have h := r.isLt
  simp only [phProd, angFullScale_eq, BitVec.toNat_mul, BitVec.toNat_setWidth, BitVec.toNat_ofNat]
  omega

theorem tQuot_toNat (p : BitVec 36) (h : p.toNat < 65536000000) : (tQuot p).toNat = p.toNat / 2000000 := by
  simp only [tQuot, outerPeriod_eq, BitVec.toNat_setWidth, BitVec.toNat_udiv, BitVec.toNat_ofNat, Nat.reducePow,
    Nat.reduceMod]
  omega

/-- The whole path of the `PHASE` operation. -/
theorem phase_path_toNat (e : Nat) : (tQuot (phProd (eRed e))).toNat = PHASE e := by
  have h := eRed_toNat e
  rw [tQuot_toNat _ (by rw [phProd_toNat, h]; omega), phProd_toNat, h, PHASE_eq]

/-! ### `mux_and_scaler` and `sine_lut_rom` -/

theorem mult_toNat (sel : Bool) (f : BitVec 12) : (mult sel f).toNat = MUX sel f.toNat := by
  cases sel <;> simp [mult, MUX]

theorem pos_toNat (t : BitVec 15) (m : BitVec 12) : (pos t m).toNat = t.toNat * m.toNat := by
  have ht := t.isLt
  have hm := m.isLt
  have h : t.toNat * m.toNat ≤ 32767 * 4095 := Nat.mul_le_mul (by omega) (by omega)
  simp only [pos, BitVec.toNat_mul, BitVec.toNat_setWidth]
  rw [Nat.mod_eq_of_lt (by omega : t.toNat < 2 ^ 27), Nat.mod_eq_of_lt (by omega : m.toNat < 2 ^ 27)]
  omega

theorem idx_toNat (p : BitVec 27) : (idx p).toNat = IDX p.toNat := by
  simp only [idx, IDX_eq, BitVec.extractLsb'_toNat, Nat.shiftRight_eq_div_pow]

theorem romQ_toNat (c : Config) (p : BitVec 27) : (romQ c p).toNat = LUT c p.toNat := by
  unfold romQ LUT
  rw [← idx_toNat, BitVec.ofNat_toNat, BitVec.setWidth_eq]

/-- In the modulation pass the index is `T[13:6]` (30_encoding.md R62). -/
theorem idx_modulation (t : BitVec 15) (f : BitVec 12) : idx (pos t (mult false f)) = t.extractLsb' 6 8 := by
  apply BitVec.eq_of_toNat_eq
  rw [idx_toNat, pos_toNat, mult_toNat, IDX_eq]
  simp only [MUX, modRate_eq, BitVec.extractLsb'_toNat, Nat.shiftRight_eq_div_pow]
  simp only [Bool.false_eq_true, if_false]
  omega

/-! ### `fixed_point_modulator` -/

theorem fmProd_toNat (m : Word) : (fmProd m).toNat = 1000 * m.toNat := by
  have h := m.isLt
  simp only [fmProd, f1_eq, f2_eq, BitVec.toNat_mul, BitVec.toNat_setWidth, BitVec.toNat_ofNat]
  omega

theorem fmQ_toNat (p : BitVec 26) : (fmQ p).toNat = p.toNat / 32768 := by
  have h := p.isLt
  simp only [fmQ, BitVec.extractLsb'_toNat, Nat.shiftRight_eq_div_pow]
  omega

theorem freqSum_toNat (q : BitVec 11) : (freqSum q).toNat = 1000 + q.toNat := by
  have h := q.isLt
  simp only [freqSum, f1_eq, BitVec.toNat_add, BitVec.toNat_setWidth, BitVec.toNat_ofNat]
  omega

/-- The whole path of the `FMOD` operation. -/
theorem fmod_path_toNat (m : Word) : (freqSum (fmQ (fmProd m))).toNat = FMOD m.toNat := by
  rw [freqSum_toNat, fmQ_toNat, fmProd_toNat, FMOD_eq]

/-! ### `pwm_duty_mapper` -/

theorem duProd_toNat (c : Config) (s : Word) : (duProd c s).toNat = s.toNat * c.dutyNum := by
  have hs := s.isLt
  have hn := lt_two_pow_bits c.dutyNum
  have hpow : 2 ^ (16 + bits c.dutyNum) = 65536 * 2 ^ bits c.dutyNum := by rw [Nat.pow_add]
  have h1 : 1 ≤ 2 ^ bits c.dutyNum := Nat.one_le_two_pow
  have hmul : s.toNat * c.dutyNum < 65536 * 2 ^ bits c.dutyNum := Nat.mul_lt_mul'' hs hn
  simp only [duProd, BitVec.toNat_mul, BitVec.toNat_setWidth, BitVec.toNat_ofNat, hpow]
  rw [Nat.mod_eq_of_lt (by omega : s.toNat < _), Nat.mod_eq_of_lt (by omega : c.dutyNum < _), Nat.mod_eq_of_lt hmul]

theorem DUTYMAP_lt (c : Config) (s : Nat) (h : s < 65536) : DUTYMAP c s < 2 ^ dutyW c := by
  refine Nat.lt_of_le_of_lt ?_ (lt_two_pow_bits _)
  exact Nat.div_le_div_right (Nat.mul_le_mul_right _ (by omega))

/-- The whole path of the `DUTY` operation. -/
theorem duQ_toNat (c : Config) (s : Word) : (duQ c s).toNat = DUTYMAP c s.toNat := by
  have h := DUTYMAP_lt c s.toNat s.isLt
  simp only [duQ, BitVec.toNat_ofNat, duProd_toNat]
  exact Nat.mod_eq_of_lt h

/-! ### The sine table ROM -/

theorem memRead_le (c : Config) (h : c.sineTable.entriesInRange = true) (i : BitVec 8) : (memRead c i).toNat ≤ 65534 := by
  simp only [SineTable.entriesInRange, List.all_eq_true, sampleMax_eq] at h
  exact of_decide_eq_true (h _ (Vector.mem_toList_iff.2 (Vector.getElem_mem _)))

theorem LUT_le (c : Config) (h : c.sineTable.entriesInRange = true) (p : Nat) : LUT c p ≤ 65534 := memRead_le c h _

theorem LUT_of_IDX_eq (c : Config) {p q : Nat} (h : IDX p = IDX q) : LUT c p = LUT c q := by
  simp only [LUT, h]

end Sys2Proof.Machine
end

