-- ==== Sys2Proof/Laws/History.lean ====
section
/-!
SUPPORT. What one more event does to what the history says.
-/

namespace Sys2Proof.Machine

@[simp] theorem pendingSample_append (h : List Event) (ev : Event) :
    pendingSample (h ++ [ev]) = trackSample (pendingSample h) ev := by
  simp [pendingSample, List.foldl_append]

@[simp] theorem lastForwarded_append (h : List Event) (ev : Event) :
    lastForwarded (h ++ [ev]) = trackForwarded (lastForwarded h) ev := by
  simp [lastForwarded, List.foldl_append]

/-- A history is explained up to a point exactly when the rest is explained from the sample in progress there. -/
theorem explained_append (c : Config) (p : Option Nat) (h k : List Event) :
    explained c p (h ++ k) = (explained c p h && explained c (h.foldl trackSample p) k) := by
  induction h generalizing p with
  | nil => simp [explained]
  | cons ev h ih => cases ev <;> cases p <;> simp [explained, trackSample, ih, Bool.and_assoc]

theorem explained_snoc (c : Config) (h : List Event) (ev : Event) :
    explained c none (h ++ [ev]) = (explained c none h && explained c (pendingSample h) [ev]) :=
  explained_append c none h [ev]

theorem forwardedOf_append (h k : List Event) : forwardedOf (h ++ k) = forwardedOf h ++ forwardedOf k := by
  induction h with
  | nil => rfl
  | cons ev h ih => cases ev <;> simp [forwardedOf, ih]

/-- In an explained history the forwarded pairs are the function-level values of the completed samples, in order. -/
theorem forwardedOf_of_explained (c : Config) (p : Option Nat) (h : List Event) (he : explained c p h = true) :
    forwardedOf h = (completedSamples p h).map (fun e => (SIREN c e, DUTYOF c e)) := by
  induction h generalizing p with
  | nil => rfl
  | cons ev h ih =>
    cases ev <;> cases p <;> simp only [explained, Bool.and_eq_true, beq_iff_eq, Bool.false_eq_true] at he <;>
      simp only [forwardedOf, completedSamples, List.map_cons]
    · exact ih _ he
    · obtain ⟨⟨hs, hd⟩, hk⟩ := he
      rw [hs, hd, ih _ hk]
    · exact ih _ he
    · exact ih _ he

end Sys2Proof.Machine
end

