-- ==== Sys2Proof/Laws/PerInstr.lean ====
section
/-!
SUPPORT. Statements about every operation as syntax, one lemma a constructor: its control word is well formed, decodes to it, and selects the multiplier
`FREQ` for `LUTC` alone (30_encoding.md R59, R60).
-/

namespace Sys2Proof.Laws.WordRoundTrip

/-- The family's statement. -/
def Statement (i : Instr) : Prop :=
  i.wf = true ∧ decode (encode i) = .ok i ∧ muxSelect (encode i) = decide (i = .lutc)

theorem phase : Statement .phase := ⟨rfl, rfl, rfl⟩
theorem lutm : Statement .lutm := ⟨rfl, rfl, rfl⟩
theorem fmod : Statement .fmod := ⟨rfl, rfl, rfl⟩
theorem lutc : Statement .lutc := ⟨rfl, rfl, rfl⟩
theorem duty : Statement .duty := ⟨rfl, rfl, rfl⟩

end Sys2Proof.Laws.WordRoundTrip
end

