-- ==== Sys2Proof/Laws/State.lean ====
section
/-!
SUPPORT. What each update of the state does to each field, so that no proof unfolds a record update.
-/

namespace Sys2Proof.Machine

variable (s : State)

/-! ### `setT` -/

@[simp] theorem setT_config (v : BitVec 15) : (setT s v).config = s.config := rfl
@[simp] theorem setT_stepReg (v : BitVec 15) : (setT s v).stepReg = s.stepReg := rfl
@[simp] theorem setT_regT (v : BitVec 15) : (setT s v).regT = v := rfl
@[simp] theorem setT_regM (v : BitVec 15) : (setT s v).regM = s.regM := rfl
@[simp] theorem setT_freq (v : BitVec 15) : (setT s v).freq = s.freq := rfl
@[simp] theorem setT_sample (v : BitVec 15) : (setT s v).sample = s.sample := rfl
@[simp] theorem setT_duty (v : BitVec 15) : (setT s v).duty = s.duty := rfl
@[simp] theorem setT_valid (v : BitVec 15) : (setT s v).valid = s.valid := rfl
@[simp] theorem setT_resetSeen (v : BitVec 15) : (setT s v).resetSeen = s.resetSeen := rfl
@[simp] theorem setT_inputs (v : BitVec 15) : (setT s v).inputs = s.inputs := rfl
@[simp] theorem setT_draws (v : BitVec 15) : (setT s v).draws = s.draws := rfl
@[simp] theorem setT_history (v : BitVec 15) : (setT s v).history = s.history := rfl

/-! ### `setM` -/

@[simp] theorem setM_config (v : Word) : (setM s v).config = s.config := rfl
@[simp] theorem setM_stepReg (v : Word) : (setM s v).stepReg = s.stepReg := rfl
@[simp] theorem setM_regT (v : Word) : (setM s v).regT = s.regT := rfl
@[simp] theorem setM_regM (v : Word) : (setM s v).regM = v := rfl
@[simp] theorem setM_freq (v : Word) : (setM s v).freq = s.freq := rfl
@[simp] theorem setM_sample (v : Word) : (setM s v).sample = s.sample := rfl
@[simp] theorem setM_duty (v : Word) : (setM s v).duty = s.duty := rfl
@[simp] theorem setM_valid (v : Word) : (setM s v).valid = s.valid := rfl
@[simp] theorem setM_resetSeen (v : Word) : (setM s v).resetSeen = s.resetSeen := rfl
@[simp] theorem setM_inputs (v : Word) : (setM s v).inputs = s.inputs := rfl
@[simp] theorem setM_draws (v : Word) : (setM s v).draws = s.draws := rfl
@[simp] theorem setM_history (v : Word) : (setM s v).history = s.history := rfl

/-! ### `setFreq` -/

@[simp] theorem setFreq_config (v : BitVec 12) : (setFreq s v).config = s.config := rfl
@[simp] theorem setFreq_stepReg (v : BitVec 12) : (setFreq s v).stepReg = s.stepReg := rfl
@[simp] theorem setFreq_regT (v : BitVec 12) : (setFreq s v).regT = s.regT := rfl
@[simp] theorem setFreq_regM (v : BitVec 12) : (setFreq s v).regM = s.regM := rfl
@[simp] theorem setFreq_freq (v : BitVec 12) : (setFreq s v).freq = v := rfl
@[simp] theorem setFreq_sample (v : BitVec 12) : (setFreq s v).sample = s.sample := rfl
@[simp] theorem setFreq_duty (v : BitVec 12) : (setFreq s v).duty = s.duty := rfl
@[simp] theorem setFreq_valid (v : BitVec 12) : (setFreq s v).valid = s.valid := rfl
@[simp] theorem setFreq_resetSeen (v : BitVec 12) : (setFreq s v).resetSeen = s.resetSeen := rfl
@[simp] theorem setFreq_inputs (v : BitVec 12) : (setFreq s v).inputs = s.inputs := rfl
@[simp] theorem setFreq_draws (v : BitVec 12) : (setFreq s v).draws = s.draws := rfl
@[simp] theorem setFreq_history (v : BitVec 12) : (setFreq s v).history = s.history := rfl

/-! ### `setSample` -/

@[simp] theorem setSample_config (v : Word) : (setSample s v).config = s.config := rfl
@[simp] theorem setSample_stepReg (v : Word) : (setSample s v).stepReg = s.stepReg := rfl
@[simp] theorem setSample_regT (v : Word) : (setSample s v).regT = s.regT := rfl
@[simp] theorem setSample_regM (v : Word) : (setSample s v).regM = s.regM := rfl
@[simp] theorem setSample_freq (v : Word) : (setSample s v).freq = s.freq := rfl
@[simp] theorem setSample_sample (v : Word) : (setSample s v).sample = v := rfl
@[simp] theorem setSample_duty (v : Word) : (setSample s v).duty = s.duty := rfl
@[simp] theorem setSample_valid (v : Word) : (setSample s v).valid = s.valid := rfl
@[simp] theorem setSample_resetSeen (v : Word) : (setSample s v).resetSeen = s.resetSeen := rfl
@[simp] theorem setSample_inputs (v : Word) : (setSample s v).inputs = s.inputs := rfl
@[simp] theorem setSample_draws (v : Word) : (setSample s v).draws = s.draws := rfl
@[simp] theorem setSample_history (v : Word) : (setSample s v).history = s.history := rfl

/-! ### `setDuty` -/

@[simp] theorem setDuty_config (v : Nat) : (setDuty s v).config = s.config := rfl
@[simp] theorem setDuty_stepReg (v : Nat) : (setDuty s v).stepReg = s.stepReg := rfl
@[simp] theorem setDuty_regT (v : Nat) : (setDuty s v).regT = s.regT := rfl
@[simp] theorem setDuty_regM (v : Nat) : (setDuty s v).regM = s.regM := rfl
@[simp] theorem setDuty_freq (v : Nat) : (setDuty s v).freq = s.freq := rfl
@[simp] theorem setDuty_sample (v : Nat) : (setDuty s v).sample = s.sample := rfl
@[simp] theorem setDuty_duty (v : Nat) : (setDuty s v).duty = v := rfl
@[simp] theorem setDuty_valid (v : Nat) : (setDuty s v).valid = s.valid := rfl
@[simp] theorem setDuty_resetSeen (v : Nat) : (setDuty s v).resetSeen = s.resetSeen := rfl
@[simp] theorem setDuty_inputs (v : Nat) : (setDuty s v).inputs = s.inputs := rfl
@[simp] theorem setDuty_draws (v : Nat) : (setDuty s v).draws = s.draws := rfl
@[simp] theorem setDuty_history (v : Nat) : (setDuty s v).history = s.history := rfl

/-! ### `setStep` -/

@[simp] theorem setStep_config (v : ControlWord) : (setStep s v).config = s.config := rfl
@[simp] theorem setStep_stepReg (v : ControlWord) : (setStep s v).stepReg = v := rfl
@[simp] theorem setStep_regT (v : ControlWord) : (setStep s v).regT = s.regT := rfl
@[simp] theorem setStep_regM (v : ControlWord) : (setStep s v).regM = s.regM := rfl
@[simp] theorem setStep_freq (v : ControlWord) : (setStep s v).freq = s.freq := rfl
@[simp] theorem setStep_sample (v : ControlWord) : (setStep s v).sample = s.sample := rfl
@[simp] theorem setStep_duty (v : ControlWord) : (setStep s v).duty = s.duty := rfl
@[simp] theorem setStep_valid (v : ControlWord) : (setStep s v).valid = s.valid := rfl
@[simp] theorem setStep_resetSeen (v : ControlWord) : (setStep s v).resetSeen = s.resetSeen := rfl
@[simp] theorem setStep_inputs (v : ControlWord) : (setStep s v).inputs = s.inputs := rfl
@[simp] theorem setStep_draws (v : ControlWord) : (setStep s v).draws = s.draws := rfl
@[simp] theorem setStep_history (v : ControlWord) : (setStep s v).history = s.history := rfl

/-! ### `setValid` -/

@[simp] theorem setValid_config : (setValid s).config = s.config := rfl
@[simp] theorem setValid_stepReg : (setValid s).stepReg = s.stepReg := rfl
@[simp] theorem setValid_regT : (setValid s).regT = s.regT := rfl
@[simp] theorem setValid_regM : (setValid s).regM = s.regM := rfl
@[simp] theorem setValid_freq : (setValid s).freq = s.freq := rfl
@[simp] theorem setValid_sample : (setValid s).sample = s.sample := rfl
@[simp] theorem setValid_duty : (setValid s).duty = s.duty := rfl
@[simp] theorem setValid_valid : (setValid s).valid = true := rfl
@[simp] theorem setValid_resetSeen : (setValid s).resetSeen = s.resetSeen := rfl
@[simp] theorem setValid_inputs : (setValid s).inputs = s.inputs := rfl
@[simp] theorem setValid_draws : (setValid s).draws = s.draws := rfl
@[simp] theorem setValid_history : (setValid s).history = s.history := rfl

/-! ### `record` -/

@[simp] theorem record_config (ev : Event) : (record s ev).config = s.config := rfl
@[simp] theorem record_stepReg (ev : Event) : (record s ev).stepReg = s.stepReg := rfl
@[simp] theorem record_regT (ev : Event) : (record s ev).regT = s.regT := rfl
@[simp] theorem record_regM (ev : Event) : (record s ev).regM = s.regM := rfl
@[simp] theorem record_freq (ev : Event) : (record s ev).freq = s.freq := rfl
@[simp] theorem record_sample (ev : Event) : (record s ev).sample = s.sample := rfl
@[simp] theorem record_duty (ev : Event) : (record s ev).duty = s.duty := rfl
@[simp] theorem record_valid (ev : Event) : (record s ev).valid = s.valid := rfl
@[simp] theorem record_resetSeen (ev : Event) : (record s ev).resetSeen = s.resetSeen := rfl
@[simp] theorem record_inputs (ev : Event) : (record s ev).inputs = s.inputs := rfl
@[simp] theorem record_draws (ev : Event) : (record s ev).draws = s.draws := rfl
@[simp] theorem record_history (ev : Event) : (record s ev).history = s.history ++ [ev] := rfl

/-! ### `nextInputs` -/

@[simp] theorem nextInputs_config : (nextInputs s).config = s.config := rfl
@[simp] theorem nextInputs_stepReg : (nextInputs s).stepReg = s.stepReg := rfl
@[simp] theorem nextInputs_regT : (nextInputs s).regT = s.regT := rfl
@[simp] theorem nextInputs_regM : (nextInputs s).regM = s.regM := rfl
@[simp] theorem nextInputs_freq : (nextInputs s).freq = s.freq := rfl
@[simp] theorem nextInputs_sample : (nextInputs s).sample = s.sample := rfl
@[simp] theorem nextInputs_duty : (nextInputs s).duty = s.duty := rfl
@[simp] theorem nextInputs_valid : (nextInputs s).valid = s.valid := rfl
@[simp] theorem nextInputs_resetSeen : (nextInputs s).resetSeen = s.resetSeen := rfl
@[simp] theorem nextInputs_inputs : (nextInputs s).inputs = s.inputs.tail := rfl
@[simp] theorem nextInputs_draws : (nextInputs s).draws = s.draws := rfl
@[simp] theorem nextInputs_history : (nextInputs s).history = s.history := rfl

/-! ### `resetStep` -/

@[simp] theorem resetStep_config : (resetStep s).config = s.config := rfl
@[simp] theorem resetStep_stepReg : (resetStep s).stepReg = 0 := rfl
@[simp] theorem resetStep_regT : (resetStep s).regT = Config.freeT s.draws := rfl
@[simp] theorem resetStep_regM : (resetStep s).regM = Config.freeM s.draws := rfl
@[simp] theorem resetStep_freq : (resetStep s).freq = Config.freeFreq s.draws := rfl
@[simp] theorem resetStep_sample : (resetStep s).sample = 0 := rfl
@[simp] theorem resetStep_duty : (resetStep s).duty = 0 := rfl
@[simp] theorem resetStep_valid : (resetStep s).valid = false := rfl
@[simp] theorem resetStep_resetSeen : (resetStep s).resetSeen = true := rfl
@[simp] theorem resetStep_inputs : (resetStep s).inputs = s.inputs := rfl
@[simp] theorem resetStep_draws : (resetStep s).draws = s.draws + 1 := rfl
@[simp] theorem resetStep_history : (resetStep s).history = s.history ++ [.reset] := rfl

/-! ### `countElapsedDraw` moves the index of free values alone -/

@[simp] theorem countElapsedDraw_config : (countElapsedDraw s).config = s.config := by
  unfold countElapsedDraw; split <;> rfl
@[simp] theorem countElapsedDraw_stepReg : (countElapsedDraw s).stepReg = s.stepReg := by
  unfold countElapsedDraw; split <;> rfl
@[simp] theorem countElapsedDraw_regT : (countElapsedDraw s).regT = s.regT := by
  unfold countElapsedDraw; split <;> rfl
@[simp] theorem countElapsedDraw_regM : (countElapsedDraw s).regM = s.regM := by
  unfold countElapsedDraw; split <;> rfl
@[simp] theorem countElapsedDraw_freq : (countElapsedDraw s).freq = s.freq := by
  unfold countElapsedDraw; split <;> rfl
@[simp] theorem countElapsedDraw_sample : (countElapsedDraw s).sample = s.sample := by
  unfold countElapsedDraw; split <;> rfl
@[simp] theorem countElapsedDraw_duty : (countElapsedDraw s).duty = s.duty := by
  unfold countElapsedDraw; split <;> rfl
@[simp] theorem countElapsedDraw_valid : (countElapsedDraw s).valid = s.valid := by
  unfold countElapsedDraw; split <;> rfl
@[simp] theorem countElapsedDraw_resetSeen : (countElapsedDraw s).resetSeen = s.resetSeen := by
  unfold countElapsedDraw; split <;> rfl
@[simp] theorem countElapsedDraw_inputs : (countElapsedDraw s).inputs = s.inputs := by
  unfold countElapsedDraw; split <;> rfl
@[simp] theorem countElapsedDraw_history : (countElapsedDraw s).history = s.history := by
  unfold countElapsedDraw; split <;> rfl

theorem countElapsedDraw_listed (v : Nat) (h : (currentInput s).elapsedMicros = some v) : countElapsedDraw s = s := by
  simp [countElapsedDraw, h]

end Sys2Proof.Machine
end

