-- ==== Sys2Proof/Laws/Step.lean ====
section
/-!
SUPPORT. What an operation and a step can do, said once: the state each operation answers, the five kinds of step, and the inversion of a step.
-/

namespace Sys2Proof.Machine

/-! ### The operations: each answers a next state, this one -/

theorem exec_phase (s : State) : exec .phase s =
    .next (record (setStep (setT (countElapsedDraw s) (tQuot (phProd (eRed (elapsedMicros s))))) 1)
      (.sampled (elapsedMicros s))) := rfl

theorem exec_lutm (s : State) : exec .lutm s =
    .next (setStep (setM s (romQ s.config (pos s.regT (mult false s.freq)))) 2) := rfl

theorem exec_fmod (s : State) : exec .fmod s = .next (setStep (setFreq s (freqSum (fmQ (fmProd s.regM)))) 3) := rfl

theorem exec_lutc (s : State) : exec .lutc s =
    .next (setStep (setSample s (romQ s.config (pos s.regT (mult true s.freq)))) 4) := rfl

theorem exec_duty (s : State) : exec .duty s =
    .next (record (setStep (setValid (setDuty s (duQ s.config s.sample).toNat)) 0)
      (.forwarded s.sample (duQ s.config s.sample).toNat)) := rfl

/-- No operation stops (60_exceptions.md R117). -/
theorem exec_next (i : Instr) (s : State) : ∃ t, exec i s = .next t := by
  cases i <;> exact ⟨_, rfl⟩

/-! ### The word-level lookups as function-level values -/

/-- The whole path of the `LUTM` operation. -/
theorem lutm_path_toNat (c : Config) (t : BitVec 15) (f : BitVec 12) :
    (romQ c (pos t (mult false f))).toNat = LUT c (t.toNat * 4) := by
  rw [romQ_toNat, pos_toNat, mult_toNat]; rfl

/-- The whole path of the `LUTC` operation. -/
theorem lutc_path_toNat (c : Config) (t : BitVec 15) (f : BitVec 12) :
    (romQ c (pos t (mult true f))).toNat = LUT c (t.toNat * f.toNat) := by
  rw [romQ_toNat, pos_toNat, mult_toNat]; rfl

/-! ### The decoder -/

@[simp] theorem decode_phase : decode 0#3 = .ok .phase := rfl
@[simp] theorem decode_lutm : decode 1#3 = .ok .lutm := rfl
@[simp] theorem decode_fmod : decode 2#3 = .ok .fmod := rfl
@[simp] theorem decode_lutc : decode 3#3 = .ok .lutc := rfl
@[simp] theorem decode_duty : decode 4#3 = .ok .duty := rfl

/-- A control word is one of the five codes or a reserved one. -/
theorem controlWord_cases (w : ControlWord) :
    (w = 0 ∧ decode w = .ok .phase) ∨ (w = 1 ∧ decode w = .ok .lutm) ∨ (w = 2 ∧ decode w = .ok .fmod) ∨
    (w = 3 ∧ decode w = .ok .lutc) ∨ (w = 4 ∧ decode w = .ok .duty) ∨
    (4 < w.toNat ∧ decode w = .error (.reservedCode w)) := by
  revert w; decide

theorem decode_ok_iff (w : ControlWord) (i : Instr) : decode w = .ok i ↔ w = encode i := by
  revert w; cases i <;> decide

/-! ### The step -/

theorem step_reset (s : State) (h : rst s = true) : step s = .next (nextInputs (resetStep s)) := by
  simp [step, h]

theorem step_stuck (s : State) (h : rst s = false) (hr : s.resetSeen = false) : step s = .fault .noStepBeforeReset := by
  simp [step, h, hr]

theorem step_run (s t : State) (i : Instr) (h : rst s = false) (hr : s.resetSeen = true)
    (hd : decode s.stepReg = .ok i) (he : exec i s = .next t) : step s = .next (nextInputs t) := by
  simp [step, h, hr, fetch, hd, he, thenNextInputs]

theorem step_reserved (s : State) (h : rst s = false) (hr : s.resetSeen = true) (hw : 4 < s.stepReg.toNat) :
    step s = .refused (.reservedStepCode s.stepReg) := by
  have hd : decode s.stepReg = .error (.reservedCode s.stepReg) := by
    rcases controlWord_cases s.stepReg with ⟨e, -⟩ | ⟨e, -⟩ | ⟨e, -⟩ | ⟨e, -⟩ | ⟨e, -⟩ | ⟨-, e⟩
    all_goals first | exact e | (rw [e] at hw; exact absurd hw (by decide))
  simp [step, h, hr, fetch, hd]

/-- Inversion of a step: if it answers a next state, it was a reset step or the selected operation. -/
theorem step_cases {s t : State} (h : step s = .next t) :
    (rst s = true ∧ t = nextInputs (resetStep s)) ∨
    (rst s = false ∧ s.resetSeen = true ∧
      ∃ i u, s.stepReg = encode i ∧ exec i s = .next u ∧ t = nextInputs u) := by
  cases hr : rst s with
  | true =>
    rw [step_reset s hr] at h
    injection h with h
    exact .inl ⟨rfl, h.symm⟩
  | false =>
    cases hs : s.resetSeen with
    | false => rw [step_stuck s hr hs] at h; cases h
    | true =>
      refine .inr ⟨rfl, rfl, ?_⟩
      by_cases hw : 4 < s.stepReg.toNat
      · rw [step_reserved s hr hs hw] at h; cases h
      · obtain ⟨i, hi⟩ : ∃ i, decode s.stepReg = .ok i := by
          rcases controlWord_cases s.stepReg with ⟨-, e⟩ | ⟨-, e⟩ | ⟨-, e⟩ | ⟨-, e⟩ | ⟨-, e⟩ | ⟨e, -⟩
          all_goals first | exact ⟨_, e⟩ | exact absurd e hw
        obtain ⟨u, hu⟩ := exec_next i s
        rw [step_run s u i hr hs hi hu] at h
        injection h with h
        exact ⟨i, u, (decode_ok_iff _ _).1 hi, hu, h.symm⟩

/-- The five operations one by one: the inversion of a step that is no reset step. -/
theorem step_run_cases {s t : State} (h : step s = .next t) (hr : rst s = false) :
    s.resetSeen = true ∧
    ((s.stepReg = 0 ∧ t = nextInputs (record (setStep (setT (countElapsedDraw s)
        (tQuot (phProd (eRed (elapsedMicros s))))) 1) (.sampled (elapsedMicros s)))) ∨
     (s.stepReg = 1 ∧ t = nextInputs (setStep (setM s (romQ s.config (pos s.regT (mult false s.freq)))) 2)) ∨
     (s.stepReg = 2 ∧ t = nextInputs (setStep (setFreq s (freqSum (fmQ (fmProd s.regM)))) 3)) ∨
     (s.stepReg = 3 ∧ t = nextInputs (setStep (setSample s (romQ s.config (pos s.regT (mult true s.freq)))) 4)) ∨
     (s.stepReg = 4 ∧ t = nextInputs (record (setStep (setValid (setDuty s (duQ s.config s.sample).toNat)) 0)
        (.forwarded s.sample (duQ s.config s.sample).toNat)))) := by
  rcases step_cases h with ⟨h1, -⟩ | ⟨-, hs, i, u, hc, he, rfl⟩
  · rw [hr] at h1; cases h1
  · refine ⟨hs, ?_⟩
    cases i
    · rw [exec_phase] at he; injection he with he; subst he; exact .inl ⟨hc, rfl⟩
    · rw [exec_lutm] at he; injection he with he; subst he; exact .inr (.inl ⟨hc, rfl⟩)
    · rw [exec_fmod] at he; injection he with he; subst he; exact .inr (.inr (.inl ⟨hc, rfl⟩))
    · rw [exec_lutc] at he; injection he with he; subst he; exact .inr (.inr (.inr (.inl ⟨hc, rfl⟩)))
    · rw [exec_duty] at he; injection he with he; subst he; exact .inr (.inr (.inr (.inr ⟨hc, rfl⟩)))

/-! ### A placed control word -/

/-- At the step that runs the placed word `rst` is 0 and `elapsed_micros` is as it was. -/
theorem currentInput_withFetchWord (s : State) (nbits w : Nat) :
    currentInput (s.withFetchWord nbits w) = { currentInput s with rst := false } := by
  have hd : currentInput (s.withFetchWord nbits w) =
      (if rst s then { currentInput s with rst := false } :: s.inputs.tail else s.inputs).headD unlistedInput := rfl
  rw [hd]
  cases h : rst s with
  | true => simp
  | false =>
    simp only [Bool.false_eq_true, if_false]
    change currentInput s = _
    rw [← h]
    rfl

/-- Only the input of this step can have changed. -/
theorem withFetchWord_inputs_tail (s : State) (nbits w : Nat) : (s.withFetchWord nbits w).inputs.tail = s.inputs.tail := by
  cases h : rst s <;> simp [State.withFetchWord, h]

end Sys2Proof.Machine
end

