-- ==== Sys2Proof/Laws/Runs.lean ====
section
/-!
SUPPORT. Runs of several steps: `runSteps` is the host's `Core.run`, and how runs compose.
-/

namespace Sys2Proof.Machine

theorem runSteps_succ {s t : State} (n : Nat) (h : step s = .next t) : runSteps (n + 1) s = runSteps n t := by
  simp [runSteps, h]

theorem runSteps_one (s : State) : runSteps 1 s = step s := by
  cases h : step s <;> simp [runSteps, h]

theorem runSteps_add {s t : State} (m n : Nat) (h : runSteps m s = .next t) : runSteps (m + n) s = runSteps n t := by
  induction m generalizing s with
  | zero => simp only [runSteps] at h; injection h with h; subst h; simp
  | succ m ih =>
    cases hs : step s with
    | next u => rw [runSteps_succ m hs] at h; rw [Nat.succ_add, runSteps_succ _ hs]; exact ih h
    | fault r => simp [runSteps, hs] at h
    | refused r => simp [runSteps, hs] at h

/-- The run of the host's interface. -/
theorem core_run (n : Nat) (s : State) : Host.Core.run Sys2Proof.core n s = runSteps n s := by
  induction n generalizing s with
  | zero => rfl
  | succ n ih =>
    cases h : step s with
    | next t =>
      have h' : Host.Core.step Sys2Proof.core s = .next t := h
      rw [runSteps_succ n h, ← ih t]
      simp only [Host.Core.run, h']
    | fault r =>
      have h' : Host.Core.step Sys2Proof.core s = .fault r := h
      simp only [Host.Core.run, h', runSteps, h]
      rfl
    | refused r =>
      have h' : Host.Core.step Sys2Proof.core s = .refused r := h
      simp only [Host.Core.run, h', runSteps, h]
      rfl

/-! ### Which steps the host leaves free of reset -/

theorem rst_eq_false_of_resetFree {n : Nat} {s : State} (h : resetFree (n + 1) s = true) : rst s = false := by
  unfold resetFree at h
  unfold rst currentInput
  cases hi : s.inputs <;> simp_all [unlistedInput]

theorem resetFree_tail {n : Nat} {s t : State} (h : resetFree (n + 1) s = true) (ht : t.inputs = s.inputs.tail) :
    resetFree n t = true := by
  unfold resetFree at *
  rw [ht]
  cases hi : s.inputs <;> simp_all

/-- No operation touches the inputs, the configuration or the power-up flag. -/
theorem exec_keeps {i : Instr} {s t : State} (h : exec i s = .next t) :
    t.inputs = s.inputs ∧ t.config = s.config ∧ t.resetSeen = s.resetSeen := by
  cases i
  · rw [exec_phase] at h; injection h with h; subst h; simp
  · rw [exec_lutm] at h; injection h with h; subst h; simp
  · rw [exec_fmod] at h; injection h with h; subst h; simp
  · rw [exec_lutc] at h; injection h with h; subst h; simp
  · rw [exec_duty] at h; injection h with h; subst h; simp

/-- The five steps of a transaction that no reset interrupts (45_sample_transaction.md R106, R108), each as the update it makes. -/
theorem transaction_steps (s : State) (hr : s.resetSeen = true) (h0 : s.stepReg = 0) (hf : resetFree 5 s = true) :
    ∃ s1 s2 s3 s4 s5, step s = .next s1 ∧ step s1 = .next s2 ∧ step s2 = .next s3 ∧ step s3 = .next s4 ∧ step s4 = .next s5 ∧
      s1 = nextInputs (record (setStep (setT (countElapsedDraw s) (tQuot (phProd (eRed (elapsedMicros s))))) 1)
        (.sampled (elapsedMicros s))) ∧
      s2 = nextInputs (setStep (setM s1 (romQ s1.config (pos s1.regT (mult false s1.freq)))) 2) ∧
      s3 = nextInputs (setStep (setFreq s2 (freqSum (fmQ (fmProd s2.regM)))) 3) ∧
      s4 = nextInputs (setStep (setSample s3 (romQ s3.config (pos s3.regT (mult true s3.freq)))) 4) ∧
      s5 = nextInputs (record (setStep (setValid (setDuty s4 (duQ s4.config s4.sample).toNat)) 0)
        (.forwarded s4.sample (duQ s4.config s4.sample).toNat)) := by
  obtain ⟨s1, d1⟩ : ∃ x, x = nextInputs (record (setStep (setT (countElapsedDraw s)
    (tQuot (phProd (eRed (elapsedMicros s))))) 1) (.sampled (elapsedMicros s))) := ⟨_, rfl⟩
  have e1 : step s = .next s1 :=
    d1 ▸ step_run s _ .phase (rst_eq_false_of_resetFree hf) hr (by rw [h0]; rfl) (exec_phase s)
  have f1 : resetFree 4 s1 = true := resetFree_tail hf (by simp [d1])
  obtain ⟨s2, d2⟩ : ∃ x, x = nextInputs (setStep (setM s1 (romQ s1.config (pos s1.regT (mult false s1.freq)))) 2) := ⟨_, rfl⟩
  have e2 : step s1 = .next s2 :=
    d2 ▸ step_run s1 _ .lutm (rst_eq_false_of_resetFree f1) (by simp [d1, hr]) (by simp [d1]) (exec_lutm s1)
  have f2 : resetFree 3 s2 = true := resetFree_tail f1 (by simp [d2])
  obtain ⟨s3, d3⟩ : ∃ x, x = nextInputs (setStep (setFreq s2 (freqSum (fmQ (fmProd s2.regM)))) 3) := ⟨_, rfl⟩
  have e3 : step s2 = .next s3 :=
    d3 ▸ step_run s2 _ .fmod (rst_eq_false_of_resetFree f2) (by simp [d2, d1, hr]) (by simp [d2]) (exec_fmod s2)
  have f3 : resetFree 2 s3 = true := resetFree_tail f2 (by simp [d3])
  obtain ⟨s4, d4⟩ : ∃ x, x = nextInputs (setStep (setSample s3 (romQ s3.config (pos s3.regT (mult true s3.freq)))) 4) := ⟨_, rfl⟩
  have e4 : step s3 = .next s4 :=
    d4 ▸ step_run s3 _ .lutc (rst_eq_false_of_resetFree f3) (by simp [d3, d2, d1, hr]) (by simp [d3]) (exec_lutc s3)
  have f4 : resetFree 1 s4 = true := resetFree_tail f3 (by simp [d4])
  have e5 := step_run s4 _ .duty (rst_eq_false_of_resetFree f4) (by simp [d4, d3, d2, d1, hr]) (by simp [d4]) (exec_duty s4)
  exact ⟨s1, s2, s3, s4, _, e1, e2, e3, e4, e5, d1, d2, d3, d4, rfl⟩

end Sys2Proof.Machine
end

