-- ==== Sys2Proof/Tests/Slice0.lean ====
section
/-!
SUPPORT. Small tests, their expected values from 95_test_vectors.md (the vector is named) or from the encoding tables of 30_encoding.md; and, for every
statement with hypotheses, a state that meets them all together (`witness_…`).
-/

namespace Sys2Proof.Machine

/-! ### Decoding: each control word written out bit by bit from 30_encoding.md R59 -/

theorem test_decode_phase : decode 0b000#3 = .ok .phase := rfl
theorem test_decode_lutm : decode 0b001#3 = .ok .lutm := rfl
theorem test_decode_fmod : decode 0b010#3 = .ok .fmod := rfl
theorem test_decode_lutc : decode 0b011#3 = .ok .lutc := rfl
theorem test_decode_duty : decode 0b100#3 = .ok .duty := rfl
theorem test_decode_reserved : decode 0b101#3 = .error (.reservedCode 5) ∧ decode 0b110#3 = .error (.reservedCode 6) ∧
    decode 0b111#3 = .error (.reservedCode 7) := ⟨rfl, rfl, rfl⟩

/-! ### Well-formedness refuses an ill-formed term of each kind -/

theorem test_wf_refuses_reserved_word : ControlWord.wf 5 = false ∧ ControlWord.wf 7 = false ∧ ControlWord.wf 4 = true := by decide
theorem test_wf_refuses_entry_65535 : SineTable.entriesInRange (sineTableDefault.set 3 65535) = false := by decide +kernel
theorem test_wf_refuses_wrong_start : SineTable.startsAtMid (sineTableDefault.set 0 32766) = false := by decide +kernel
theorem test_wf_refuses_wrong_half : SineTable.midAtHalf (sineTableDefault.set 128 32768) = false := by decide +kernel
theorem test_wf_refuses_low_peak : SineTable.peakAtQuarter (sineTableDefault.set 64 65523) = false := by decide +kernel
/-- A configuration with `DUTY_DEN` = 0 or `ELAPSED_W` = 0 cannot be built (44_pwm_duty_mapper.md R98, 00_scope.md R7). -/
theorem test_no_config_with_zero (c : Config) : c.dutyDen ≠ 0 ∧ c.elapsedW ≠ 0 :=
  ⟨Nat.ne_of_gt c.dutyDen_pos, Nat.ne_of_gt c.elapsedW_pos⟩
/-- The check values of the listing (20_memory.md R40). -/
theorem test_listing_sum : (sineListing.map BitVec.toNat).sum = 8388352 := by decide +kernel

/-! ### The operations, one step each -/

/-- The field `f` of the next state, if there is one. -/
def after {α : Type} (f : State → α) : Host.Outcome State Fault Refusal → Option α
  | .next t => some (f t)
  | .fault _ => none
  | .refused _ => none

/-- The state after reset with the host's input of this step. -/
def withInput (i : HostInput) : State := { State.reset with inputs := [i] }

/-- P16: the greatest 64-bit input. -/
theorem test_phase_P16 : after (fun t => (t.regT, t.stepReg, t.history))
    (step (withInput { rst := false, elapsedMicros := some 18446744073709551615 })) =
    some (25421, 1, [.sampled 18446744073709551615]) := by decide
/-- P11 and P13 at once: the wrap of the outer period, one count before it and at it. -/
theorem test_phase_wrap : after State.regT (step (withInput { rst := false, elapsedMicros := some 1999999 })) = some 32767 ∧
    after State.regT (step (withInput { rst := false, elapsedMicros := some 2000000 })) = some 0 := by decide
/-- M5: the modulation wraps at half the outer period. -/
theorem test_lutm_M5 : after (fun t => (t.regM, t.stepReg)) (exec .lutm { State.reset with regT := 16384 }) = some (32767, 2) := by decide
/-- M3: the first position of bucket 1; `FREQ` is not read. -/
theorem test_lutm_M3 : after State.regM (exec .lutm { State.reset with regT := 64, freq := 4095 }) = some 33571 := by decide
/-- F7. -/
theorem test_fmod_F7 : after (fun t => (t.freq, t.stepReg)) (exec .fmod { State.reset with regM := 65534 }) = some (2999, 3) := by decide
/-- F3. -/
theorem test_fmod_F3 : after State.freq (exec .fmod { State.reset with regM := 33 }) = some 1001 := by decide
/-- M8; and M7 as the last step 3 of program D, on the ports: `sample` is new while `duty` and `duty_valid` are still 0 (log 10). -/
theorem test_lutc_M7_M8 : after (fun t => (t.sample, t.stepReg, t.duty)) (exec .lutc { State.reset with regT := 4096, freq := 2999 }) =
      some (45306, 4, 0) ∧
    after (fun t => (portSample t, portDuty t, portDutyValid t)) (step { State.reset with stepReg := 3, regT := 1, regM := 32767, freq := 1999 }) =
      some (38369, 0, false) := by decide
/-- M11: the greatest product the widths allow. -/
theorem test_lutc_M11 : after State.sample (exec .lutc { State.reset with regT := 32767, freq := 2999 }) = some 42279 := by decide
/-- D11. -/
theorem test_duty_D11 : after (fun t => (t.duty, t.valid, t.stepReg, t.history)) (exec .duty { State.reset with sample := 45306 }) =
    some (69, true, 0, [.forwarded 45306 69]) := by decide
/-- D6 for both documented parameter sets. -/
theorem test_duty_D6 : after State.duty (exec .duty { State.reset with sample := 32767 }) = some 50 ∧
    after State.duty (exec .duty { State.reset with sample := 32767, config := Config.sourceCompatible }) = some 49 := by decide
/-- Program D, step r: `FMOD` is not executed, not even in part. -/
theorem test_reset_step : after (fun t => (t.stepReg, t.sample, t.duty, t.valid, t.history))
    (step { withInput { rst := true, elapsedMicros := some 250000 } with stepReg := 2, regM := 65534, history := [.sampled 250000] }) =
    some (0, 0, 0, false, [.sampled 250000, .reset]) := by decide
/-- A word placed for the fetch runs, also where the host would have asserted `rst`. -/
theorem test_placed_word : after (fun t => (t.sample, t.stepReg))
    (step ((withInput { rst := true, elapsedMicros := none }).withFetchWord 8 3)) = some (32767, 4) := by decide
/-- E14 and E27, the function level. -/
theorem test_siren_E14_E27 : SIREN Config.default 1234567 = 55937 ∧ DUTYOF Config.default 1234567 = 85 ∧
    SIREN Config.default 2503 = 65534 ∧ DUTYOF Config.sourceCompatible 2503 = 99 := by decide

/-! ### Witnesses: states and operands that meet the hypotheses of the statements -/

/-- The state after reset with `STEP` = `w`. -/
def atStep (w : ControlWord) : State := { State.reset with stepReg := w }

/-- A state at whose step `rst` is 1. -/
def resetting : State := withInput { rst := true, elapsedMicros := some 5 }

/-- Program B before its first `DUTY` step: a result of the transaction before, a new sample already on the port. -/
def midTransaction : State :=
  { State.reset with
    stepReg := 4, regT := 4096, regM := 65534, freq := 2999, sample := 45306, duty := 50, valid := true
    history := [.sampled 0, .forwarded 32767 50, .sampled 250000] }

/-- StepRunsSelectedOperation, PlacedWordRuns: for every operation. -/
theorem witness_operation_selected (i : Instr) : rst (atStep (encode i)) = false ∧ (atStep (encode i)).resetSeen = true ∧
    decode (atStep (encode i)).stepReg = .ok i ∧ decodeTableWord 8 (encode i).toNat = some i := by
  cases i <;> exact ⟨rfl, rfl, rfl, rfl⟩

/-- SequencerAlwaysSteps, LegalRunsNeverStop: a legal state with `rst` = 0 and one with `rst` = 1, at the boundary codes 0 and 4. -/
theorem witness_legal : Legal (atStep 0) ∧ Legal (atStep 4) ∧ rst (atStep 4) = false ∧ Legal resetting ∧ rst resetting = true :=
  ⟨⟨rfl, rfl⟩, ⟨rfl, rfl⟩, rfl, ⟨rfl, rfl⟩, rfl⟩

/-- ResetStepState, ResetValues, ResetAbandonsTheTransaction: a reset step, the step after it without reset. -/
theorem witness_reset_step : rst resetting = true ∧ step resetting = .next (nextInputs (resetStep resetting)) ∧
    rst (nextInputs (resetStep resetting)) = false := ⟨rfl, rfl, rfl⟩

/-- ResetComesFromThePortOnly: power-up with `rst` = 0; a step with `rst` = 0; `rst` held for two steps. -/
theorem witness_reset_from_port : State.powerUp.resetSeen = false ∧ rst State.powerUp = false ∧
    (∃ t, step (atStep 4) = .next t) ∧ rst (atStep 4) = false ∧
    resetHeld 2 { State.powerUp with inputs := [⟨true, none⟩, ⟨true, some 7⟩] } = true :=
  ⟨rfl, rfl, ⟨_, rfl⟩, rfl, rfl⟩

/-- ReservedCodesAreRefusedAndUnreachable: each of the three codes; and a step that answers a next state. -/
theorem witness_reserved : (∀ w ∈ [5#3, 6#3, 7#3], rst (atStep w) = false ∧ (atStep w).resetSeen = true ∧
    ((atStep w).stepReg = 5 ∨ (atStep w).stepReg = 6 ∨ (atStep w).stepReg = 7)) ∧ ∃ t, step (atStep 3) = .next t :=
  ⟨by decide +kernel, _, rfl⟩

/-- StepCounterAdvances, RomIsNeverWritten, ValidIsSticky, EachRegisterHasOneWriter, HistoryRecordsAndIsNeverRead: a next state at every `STEP` with `rst` = 0 and
at a reset step; a next state of every operation. -/
theorem witness_next_states (i : Instr) : (∃ t, step (atStep (encode i)) = .next t) ∧ rst (atStep (encode i)) = false ∧
    (∃ t, exec i (atStep (encode i)) = .next t) ∧ (∃ t, step resetting = .next t) ∧ rst resetting = true := by
  cases i <;> exact ⟨⟨_, rfl⟩, rfl, ⟨_, rfl⟩, ⟨_, rfl⟩, rfl⟩

/-- InputSampledOnlyByPhase: a step of another operation, and a reset step at `STEP` 0. -/
theorem witness_input_ignored : (atStep 1).stepReg ≠ 0 ∧ resetting.stepReg = 0 ∧ rst resetting = true := by
  exact ⟨by decide, rfl, rfl⟩

/-- PhaseOperation: the greatest number the port holds, and the time of the example. -/
theorem witness_phase : (currentInput (withInput ⟨false, some (2 ^ 64 - 1)⟩)).elapsedMicros = some (2 ^ 64 - 1) ∧
    2 ^ 64 - 1 ≤ 2 ^ (withInput ⟨false, some (2 ^ 64 - 1)⟩).config.elapsedW - 1 ∧
    elapsedMicros (withInput ⟨false, some 250000⟩) = 250000 := by decide

/-- LutmOperation, LutcOperation, ValueAtTimeZero, LookupIsTheIndexedEntry, DefaultTableShape: the default table is admissible, in a state with `T` = 0. -/
theorem witness_admissible_table : (atStep 1).config.sineTable.admissible = true ∧ (atStep 1).regT = 0 ∧
    (atStep 1).config.sineTable = sineTableDefault ∧ PHASE 61 = 0 ∧ 61 % 2000000 ≤ 61 := by decide +kernel

/-- LutmOperation, LutcOperation, FmodOperation: the corner registers. -/
theorem witness_corner_registers : { atStep 1 with regT := 16383 }.regT = 16383 ∧ { atStep 1 with regT := 16384 }.regT = 16384 ∧
    { atStep 1 with regT := 32767 }.regT = 32767 ∧ { atStep 3 with regT := 4096, freq := 2999 }.freq.toNat ≤ 2999 ∧
    { atStep 2 with regM := 65535 }.regM = 65535 := by decide +kernel

/-- DutyOperation, ExactDutyRange, DutyWidthsHold, NoWidthTruncates: the two documented parameter sets, and the 255 and 1023 steps of R100. -/
theorem witness_duty_parameters : Config.default.dutyNum = 100 ∧ Config.default.dutyDen = 65534 ∧ 1 ≤ Config.default.dutyNum ∧
    Config.sourceCompatible.dutyNum = 50 ∧ Config.sourceCompatible.dutyDen = 32768 ∧
    { Config.default with dutyNum := 255 }.dutyDen = 65534 ∧ { Config.default with dutyNum := 1023 }.dutyDen = 65534 := by decide +kernel

/-- RangesOfTheSample, NoWidthTruncates: a table that meets T-b. -/
theorem witness_entries_in_range : Config.default.sineTable.entriesInRange = true := by decide +kernel

/-- PhaseIsAStaircase: both ends of its two ranges. -/
theorem witness_staircase : 0 ≤ 1999999 ∧ 1999999 < 2000000 ∧ PHASE 0 = 0 ∧ PHASE 1999999 = 32767 := by decide

/-- TransactionResult, NoHiddenState: a transaction from the state after reset, and one from a state with other registers and a busy host. -/
theorem witness_transaction : State.reset.resetSeen = true ∧ State.reset.stepReg = 0 ∧ resetFree 5 State.reset = true ∧
    (∃ s, s ≠ State.reset ∧ s.config = State.reset.config ∧ s.stepReg = 0 ∧ resetFree 5 s = true ∧
      elapsedMicros s = elapsedMicros State.reset ∧ (∃ t, runSteps 5 s = .next t) ∧ ∃ t, runSteps 5 State.reset = .next t) :=
  ⟨rfl, rfl, rfl, { State.reset with regT := 7, regM := 8, freq := 9, sample := 10, inputs := [⟨false, none⟩, ⟨false, some 3⟩] },
    fun h => absurd (congrArg State.regT h) (by decide), rfl, rfl, rfl, rfl, ⟨_, rfl⟩, ⟨_, rfl⟩⟩

/-- FirstResultAfterReset, ForwardedEventsAreImageOfSampled: a reset step, then no reset. -/
theorem witness_first_result : rst resetting = true ∧ resetFree 5 { resetting with inputs := resetting.inputs.tail } = true ∧
    ∃ t, runSteps 6 resetting = .next t := ⟨rfl, rfl, _, rfl⟩

/-- SampleLeadsDutyByOneStep. -/
theorem witness_skew : (atStep 3).resetSeen = true ∧ (atStep 3).stepReg = 3 ∧ resetFree 2 (atStep 3) = true := ⟨rfl, rfl, rfl⟩

/-- StepKeepsTransactionInvariant: a state in the middle of a transaction meets the invariant, and steps. -/
theorem witness_transaction_invariant : TransactionInv midTransaction ∧ ∃ t, step midTransaction = .next t := by
  refine ⟨⟨⟨rfl, rfl⟩, by decide, ⟨?_, ?_, ?_, ?_, fun _ => ⟨250000, rfl, by decide⟩⟩, ⟨fun h => ?_, fun w d h => ?_⟩⟩, _, rfl⟩
  · exact fun h => absurd h (by decide)
  · exact fun h => absurd h (by decide)
  · exact fun h => absurd h (by decide)
  · exact fun h => absurd h (by decide)
  · exact absurd h (by decide)
  · injection h with h
    injection h with hw hd
    exact ⟨rfl, hd, fun h4 => absurd rfl h4⟩

/-- StepKeepsRegisterRanges: the same state meets the ranges and the width of `DUTY`. -/
theorem witness_register_ranges : RangeInv midTransaction ∧ DutyFits midTransaction :=
  ⟨⟨witness_entries_in_range, fun _ => by decide, fun _ => by decide, by decide, by decide⟩, by unfold DutyFits; decide⟩

end Sys2Proof.Machine
end

section
/-!
PROOFS of the statements about the state (10_state.md): the step of a legal block, `VALID`, the event history, the widths, the reset values.
-/

namespace Sys2Proof.Machine

/-! ### What an operation does to one field, and which fields it does not read -/

/-- Counting a draw is an update of `draws` alone, by an amount that only the input ports decide. -/
theorem countElapsedDraw_eq (s : State) :
    countElapsedDraw s = { s with draws := s.draws + if (currentInput s).elapsedMicros.isNone then 1 else 0 } := by
  unfold countElapsedDraw
  cases (currentInput s).elapsedMicros <;> rfl

/-- Every operation moves `STEP` to the next of the five codes (45_sample_transaction.md R107). -/
theorem exec_stepReg_toNat {i : Instr} {s t : State} (h : exec i s = .next t) :
    t.stepReg.toNat = ((encode i).toNat + 1) % 5 := by
  cases i <;> injection h with h <;> subst h <;> rfl

/-- `DUTY` sets `VALID`, the other operations keep it. -/
theorem exec_valid {i : Instr} {s t : State} (h : exec i s = .next t) : t.valid = (decide (i = .duty) || s.valid) := by
  cases i <;> injection h with h <;> subst h <;> simp

/-- An operation other than `DUTY` does not read `VALID`: from another value it does the same and keeps that value. -/
theorem exec_with_valid {i : Instr} {s t : State} (b : Bool) (hi : i ≠ .duty) (h : exec i s = .next t) :
    exec i { s with valid := b } = .next { t with valid := b } := by
  cases i
  case phase => rw [exec_phase, countElapsedDraw_eq] at h ⊢; injection h with h; subst h; rfl
  case duty => exact absurd rfl hi
  all_goals injection h with h; subst h; rfl

/-- The events an operation records (10_state.md R17). -/
def execEvents (i : Instr) (s : State) : List Event :=
  match i with
  | .phase => [.sampled (elapsedMicros s)]
  | .duty => [.forwarded s.sample (duQ s.config s.sample).toNat]
  | .lutm | .fmod | .lutc => []

/-- An operation appends its events to the history, whatever the history is, and does not read it. -/
theorem exec_with_history {i : Instr} {s t : State} (k : List Event) (h : exec i s = .next t) :
    exec i { s with history := k } = .next { t with history := k ++ execEvents i s } := by
  cases i
  case phase => rw [exec_phase, countElapsedDraw_eq] at h ⊢; injection h with h; subst h; rfl
  case duty => injection h with h; subst h; rfl
  all_goals injection h with h; subst h; rw [execEvents, List.append_nil]; rfl

theorem exec_history {i : Instr} {s t : State} (h : exec i s = .next t) :
    t.history = s.history ++ execEvents i s := by
  have h' := exec_with_history s.history h
  rw [h] at h'
  injection h' with h'
  rw [h']

/-! ### Legal states -/

/-- A control word is well formed exactly when it is the code of an operation. -/
theorem wf_iff_exists_encode (w : ControlWord) : w.wf = true ↔ ∃ i, w = encode i := by
  constructor
  · intro h
    have hle : w.toNat ≤ 4 := of_decide_eq_true h
    rcases controlWord_cases w with ⟨hw, -⟩ | ⟨hw, -⟩ | ⟨hw, -⟩ | ⟨hw, -⟩ | ⟨hw, -⟩ | ⟨hw, -⟩
    · exact ⟨.phase, hw⟩
    · exact ⟨.lutm, hw⟩
    · exact ⟨.fmod, hw⟩
    · exact ⟨.lutc, hw⟩
    · exact ⟨.duty, hw⟩
    · omega
  · rintro ⟨i, rfl⟩
    cases i <;> rfl

/-- Every operation leaves `STEP` at one of the five codes. -/
theorem exec_stepReg_wf {i : Instr} {s t : State} (h : exec i s = .next t) : t.stepReg.wf = true := by
  have hn := exec_stepReg_toNat h
  exact decide_eq_true (by omega)

/-- A step of a legal block with `rst` = 0 is the operation `STEP` decodes to, and leaves a legal block. -/
theorem step_of_legal {s : State} (hs : Legal s) (hr : rst s = false) :
    ∃ i u, decode s.stepReg = .ok i ∧ exec i s = .next u ∧ step s = .next (nextInputs u) ∧ Legal (nextInputs u) := by
  obtain ⟨hseen, hwf⟩ := hs
  obtain ⟨i, hi⟩ := (wf_iff_exists_encode _).1 hwf
  have hd := (decode_ok_iff _ i).2 hi
  obtain ⟨u, hu⟩ := exec_next i s
  obtain ⟨-, -, hkeep⟩ := exec_keeps hu
  have hwf' : u.stepReg.wf = true := exec_stepReg_wf hu
  exact ⟨i, u, hd, hu, step_run s u i hr hseen hd hu, hkeep.trans hseen, hwf'⟩

theorem nextInputs_of_inputs_eq {s u : State} (h : u.inputs = s.inputs) :
    nextInputs u = { u with inputs := s.inputs.tail } := by
  rw [nextInputs, h]

/-- Settles O6: the reset step leaves a legal block, and so does the selected operation. -/
theorem sequencerAlwaysSteps : Obligations.SequencerAlwaysSteps := by
  intro s hs
  cases hr : rst s with
  | true =>
    exact ⟨_, step_reset s hr, ⟨rfl, rfl⟩, fun _ => rfl, nofun⟩
  | false =>
    obtain ⟨i, u, hd, hu, hstep, hlegal⟩ := step_of_legal hs hr
    obtain ⟨hin, -, -⟩ := exec_keeps hu
    exact ⟨_, hstep, hlegal, nofun, fun _ => ⟨i, u, hd, hu, nextInputs_of_inputs_eq hin⟩⟩

/-! ### `VALID` -/

theorem encode_eq_zero_iff (i : Instr) : encode i = 0#3 ↔ i = .phase := by
  cases i <;> decide

theorem encode_eq_four_iff (i : Instr) : encode i = 4#3 ↔ i = .duty := by
  cases i <;> decide

/-- After a step `duty_valid` is 1 exactly when the step was no reset step and either was `DUTY` or found it 1. -/
theorem step_valid_iff {s t : State} (h : step s = .next t) :
    t.valid = true ↔ rst s = false ∧ (s.stepReg = 4 ∨ s.valid = true) := by
  rcases step_cases h with ⟨hr, rfl⟩ | ⟨hr, -, i, u, hc, hu, rfl⟩
  · simp [hr]
  · simp [hr, hc, exec_valid hu, encode_eq_four_iff]

/-- Settles O14: `VALID` follows `exec_valid`, and `exec_with_valid` says that it is not read. -/
theorem validIsSticky : Obligations.ValidIsSticky := by
  refine ⟨fun s t h => step_valid_iff h, fun i s b t hi h => ⟨?_, exec_with_valid b hi h⟩, fun s b t h => ⟨?_, ?_⟩⟩
  · simp [exec_valid h, hi]
  · simp [exec_valid h]
  · exact h

/-! ### The event history -/

theorem execEvents_eq_nil {i : Instr} (s : State) (hp : i ≠ .phase) (hd : i ≠ .duty) : execEvents i s = [] := by
  cases i
  case phase => exact absurd rfl hp
  case duty => exact absurd rfl hd
  all_goals rfl

/-- What the `DUTY` operation forwards is the `SAMPLE` it read and the `DUTY` it wrote. -/
theorem execEvents_duty {s t : State} (h : exec .duty s = .next t) :
    execEvents .duty s = [.forwarded s.sample t.duty] := by
  injection h with h; subst h; rfl

/-- Settles O16: the events are `reset` or those of the operation, by `exec_with_history`. -/
theorem historyRecordsAndIsNeverRead : Obligations.HistoryRecordsAndIsNeverRead := by
  intro s t h hstep
  rcases step_cases hstep with ⟨hr, rfl⟩ | ⟨hr, hseen, i, u, hc, hu, rfl⟩
  · exact ⟨[.reset], rfl, step_reset _ hr, fun _ => rfl, by simp [hr]⟩
  · have hhist : u.history = s.history ++ execEvents i s := exec_history hu
    have hrun : step { s with history := h } = .next (nextInputs { u with history := h ++ execEvents i s }) :=
      step_run _ _ i hr hseen ((decode_ok_iff _ _).2 hc) (exec_with_history h hu)
    refine ⟨execEvents i s, hhist, hrun, by simp [hr], fun _ h0 => ?_, fun _ h4 => ?_, fun _ h0 h4 => ?_⟩
    · obtain rfl := (encode_eq_zero_iff i).1 (hc ▸ h0)
      rfl
    · obtain rfl := (encode_eq_four_iff i).1 (hc ▸ h4)
      have hev : execEvents .duty s = [.forwarded s.sample u.duty] := execEvents_duty hu
      exact hev
    · rw [hc] at h0 h4
      exact execEvents_eq_nil s (mt (encode_eq_zero_iff i).2 h0) (mt (encode_eq_four_iff i).2 h4)

/-! ### The widths of the datapath -/

/-- The reduced time, its product and its quotient (41_phase_accumulator.md R78). -/
theorem phase_values_exact (e : Nat) :
    (eRed e).toNat = e % 2000000 ∧ (eRed e).toNat ≤ 1999999 ∧ (phProd (eRed e)).toNat = (e % 2000000) * 32768 ∧
    (phProd (eRed e)).toNat ≤ 65535967232 ∧ (tQuot (phProd (eRed e))).toNat = ((e % 2000000) * 32768) / 2000000 := by
  have hred := eRed_toNat e
  have hprod : (phProd (eRed e)).toNat = (e % 2000000) * 32768 := by rw [phProd_toNat, hred]
  exact ⟨hred, by omega, hprod, by omega, phase_path_toNat e⟩

/-- The position stays exact and below its maximum in both passes (42_mux_and_scaler.md R83). -/
theorem pos_values_exact (t : BitVec 15) (m : BitVec 12) :
    (pos t m).toNat = t.toNat * m.toNat ∧ (m.toNat ≤ 2999 → (pos t m).toNat ≤ 98268233) ∧
    (pos t (mult false m)).toNat ≤ 131068 := by
  have ht : t.toNat ≤ 32767 := Nat.le_of_lt_succ t.isLt
  refine ⟨pos_toNat t m, fun hm => ?_, ?_⟩
  · rw [pos_toNat]
    exact Nat.mul_le_mul ht hm
  · rw [pos_toNat, mult_toNat]
    exact Nat.mul_le_mul_right 4 ht

/-- The product, the quotient and the frequency (43_fixed_point_modulator.md R95). -/
theorem fmod_values_exact (m : Word) :
    (fmProd m).toNat = 1000 * m.toNat ∧ (fmProd m).toNat ≤ 65535000 ∧ (m.toNat ≤ 65534 → (fmProd m).toNat ≤ 65534000) ∧
    (fmQ (fmProd m)).toNat = (1000 * m.toNat) / 32768 ∧ (fmQ (fmProd m)).toNat ≤ 1999 ∧
    (freqSum (fmQ (fmProd m))).toNat = 1000 + (1000 * m.toNat) / 32768 ∧ (freqSum (fmQ (fmProd m))).toNat ≤ 2999 := by
  have hm := m.isLt
  have hprod := fmProd_toNat m
  have hquot : (fmQ (fmProd m)).toNat = (1000 * m.toNat) / 32768 := by rw [fmQ_toNat, hprod]
  have hfreq : (freqSum (fmQ (fmProd m))).toNat = 1000 + (1000 * m.toNat) / 32768 := fmod_path_toNat m
  exact ⟨hprod, by omega, by omega, hquot, by omega, hfreq, by omega⟩

/-- The product and the quotient of the duty mapping, with their maxima for the default parameters (44_pwm_duty_mapper.md R101). -/
theorem duty_values_exact (c : Config) (s : Word) :
    (duProd c s).toNat = s.toNat * c.dutyNum ∧ (duQ c s).toNat = (s.toNat * c.dutyNum) / c.dutyDen ∧
    (c.dutyNum = 100 → (duProd c s).toNat ≤ 6553500 ∧ (s.toNat ≤ 65534 → (duProd c s).toNat ≤ 6553400) ∧
      (c.dutyDen = 65534 → (duQ c s).toNat ≤ 100)) := by
  have hs := s.isLt
  have hprod := duProd_toNat c s
  have hquot : (duQ c s).toNat = (s.toNat * c.dutyNum) / c.dutyDen := duQ_toNat c s
  refine ⟨hprod, hquot, fun hnum => ?_⟩
  have hprod100 : (duProd c s).toNat = s.toNat * 100 := by rw [hprod, hnum]
  refine ⟨by omega, by omega, fun hden => ?_⟩
  rw [hquot, hnum, hden]
  omega

/-- Settles O32: each sub-block's values are exact, by the lemmas above and those of the datapath. -/
theorem noWidthTruncates : Obligations.NoWidthTruncates := by
  refine ⟨phase_values_exact, fun sel f => ?_, pos_values_exact, idx_toNat, fun c p => ?_, fmod_values_exact, duty_values_exact⟩
  · exact mult_toNat sel f
  · exact ⟨rfl, fun h => memRead_le c h (idx p)⟩

/-! ### The reset values -/

/-- Settles O9: each value is one that the reset step writes. -/
theorem resetValues : Obligations.ResetValues :=
  ⟨⟨rfl, rfl, rfl, rfl, decode_phase⟩, fun s hr => ⟨_, step_reset s hr, rfl, rfl, rfl, rfl, rfl⟩⟩

end Sys2Proof.Machine
end

section
/-!
PROOFS of the statements about the memory (20_memory.md): the sine table ROM lives in the configuration, which no step changes.
-/

namespace Sys2Proof.Machine

/-- Every step, reset steps included, keeps the configuration, and with it the ROM. -/
theorem step_config {s t : State} (h : step s = .next t) : t.config = s.config := by
  rcases step_cases h with ⟨-, rfl⟩ | ⟨-, -, i, u, -, hu, rfl⟩
  · rw [nextInputs_config, resetStep_config]
  · obtain ⟨-, hconfig, -⟩ := exec_keeps hu
    rw [nextInputs_config, hconfig]

/-- Settles O13: neither the reset step nor any operation touches the configuration. -/
theorem romIsNeverWritten : Obligations.RomIsNeverWritten :=
  fun _ _ h => step_config h

end Sys2Proof.Machine
end

section
/-!
PROOFS of the statements about the encoding (30_encoding.md): the eight values of the control word, as the decoder reads them and as the
opcode table numbers them, and the reserved codes at a step.
-/

namespace Sys2Proof.Machine

/-! ### The reserved codes at a step (30_encoding.md R64) -/

/-- The three reserved codes lie above the code of every operation. -/
theorem four_lt_of_reserved {w : ControlWord} (hw : w = 5 ∨ w = 6 ∨ w = 7) : 4 < w.toNat := by
  rcases hw with rfl | rfl | rfl <;> decide

/-- Every step, from any state, leaves `STEP` at the code of an operation: a reset step at 0, an operation at its successor's code. -/
theorem step_stepReg_wf {s t : State} (h : step s = .next t) : t.stepReg.wf = true := by
  rcases step_cases h with ⟨-, rfl⟩ | ⟨-, -, i, u, -, hu, rfl⟩
  · rfl
  · rw [nextInputs_stepReg]
    exact exec_stepReg_wf hu

/-- Settles O11: `step_reserved` refuses the three codes, and `step_stepReg_wf` says that no step writes one. -/
theorem reservedCodesAreRefusedAndUnreachable : Obligations.ReservedCodesAreRefusedAndUnreachable :=
  ⟨fun s hr hseen hw => step_reserved s hr hseen (four_lt_of_reserved hw), fun _ _ h => of_decide_eq_true (step_stepReg_wf h)⟩

/-! ### The words as the opcode table numbers them (30_encoding.md R59) -/

/-- A number of three bits or more holds a control word in its low bits. -/
theorem controlWord_toNat {nbits : Nat} (hn : 3 ≤ nbits) (w : ControlWord) : controlWord nbits w.toNat = w := by
  have hlt : w.toNat < 2 ^ nbits := w.isLt.trans_le (Nat.pow_le_pow_right (by decide) hn)
  rw [controlWord, Nat.mod_eq_of_lt hlt, BitVec.ofNat_toNat, BitVec.setWidth_eq]

theorem decode_encode (i : Instr) : decode (encode i) = .ok i :=
  (decode_ok_iff _ i).2 rfl

/-- A code above 4 is rejected under its own name. -/
theorem decode_of_four_lt {w : ControlWord} (hw : 4 < w.toNat) : decode w = .error (.reservedCode w) := by
  revert w; decide

theorem decodeTableWord_encode {nbits : Nat} (hn : 3 ≤ nbits) (i : Instr) :
    decodeTableWord nbits (encode i).toNat = some i := by
  rw [decodeTableWord, controlWord_toNat hn, decode_encode]

theorem decodeTableWord_of_four_lt {nbits : Nat} (hn : 3 ≤ nbits) {w : ControlWord} (hw : 4 < w.toNat) :
    decodeTableWord nbits w.toNat = none := by
  rw [decodeTableWord, controlWord_toNat hn, decode_of_four_lt hw]

/-- Settles O1: the codes of the five operations and the three reserved ones, for the word itself and for its number in the table. -/
theorem controlWordSelectsOperation : Obligations.ControlWordSelectsOperation := by
  have h8 : 3 ≤ 8 := by decide
  have h5 : 4 < (5 : ControlWord).toNat := by decide
  have h6 : 4 < (6 : ControlWord).toNat := by decide
  have h7 : 4 < (7 : ControlWord).toNat := by decide
  exact ⟨decode_encode .phase, decode_encode .lutm, decode_encode .fmod, decode_encode .lutc, decode_encode .duty,
    decode_of_four_lt h5, decode_of_four_lt h6, decode_of_four_lt h7,
    decodeTableWord_encode h8 .phase, decodeTableWord_encode h8 .lutm, decodeTableWord_encode h8 .fmod,
    decodeTableWord_encode h8 .lutc, decodeTableWord_encode h8 .duty,
    decodeTableWord_of_four_lt h8 h5, decodeTableWord_of_four_lt h8 h6, decodeTableWord_of_four_lt h8 h7⟩

end Sys2Proof.Machine
end

section
/-!
PROOFS of the statements about the lookup (40_sine_lut_rom.md): the index of a position and the table entry it selects.
-/

namespace Sys2Proof.Machine

/-! ### The index (40_sine_lut_rom.md R67) -/

theorem IDX_eq_mod_div (p : Nat) : IDX p = (p % 65536) / 256 :=
  (Nat.mod_mul_right_div_self p 256 256).symm

/-- No position leads out of the table (40_sine_lut_rom.md R69). -/
theorem IDX_lt (p : Nat) : IDX p < 256 :=
  Nat.mod_lt _ (by decide)

/-- The index drops the low 8 bits of the position, so all positions of a block of 256 share it (40_sine_lut_rom.md R71). -/
theorem IDX_sub_mod (p : Nat) : IDX (p - p % 256) = IDX p := by
  have hblock : (p - p % 256) / 256 = p / 256 := by omega
  rw [IDX_eq, IDX_eq, hblock]

/-- Settles O23: the two forms on numbers by `IDX_eq` and `IDX_eq_mod_div`, the hardware's bit slice by `idx_toNat`. -/
theorem indexFormsAgree : Obligations.IndexFormsAgree :=
  ⟨fun p => ⟨IDX_eq p, IDX_eq_mod_div p, Nat.le_of_lt_succ (IDX_lt p)⟩, idx_toNat, rfl, rfl, rfl, rfl, rfl, rfl⟩

/-! ### The selected entry (40_sine_lut_rom.md R68) -/

/-- The index fits the 8 bits of the ROM's address, so the read is of that very entry. -/
theorem LUT_eq_getElem (c : Config) (p : Nat) : LUT c p = (c.sineTable[IDX p]'(IDX_lt p)).toNat := by
  have haddr : (BitVec.ofNat 8 (IDX p)).toNat = IDX p := Nat.mod_eq_of_lt (IDX_lt p)
  simp only [LUT, memRead, haddr]

/-- An admissible table starts at the middle of the range (20_memory.md R38, T-c). -/
theorem LUT_zero (c : Config) (h : c.sineTable.admissible = true) : LUT c 0 = 32767 := by
  simp only [SineTable.admissible, Bool.and_eq_true] at h
  obtain ⟨⟨⟨-, hstart⟩, -⟩, -⟩ := h
  have hentry : c.sineTable[0] = 32767#16 := eq_of_beq hstart
  rw [LUT_eq_getElem]
  exact congrArg BitVec.toNat hentry

theorem LUT_sub_mod (c : Config) (p : Nat) : LUT c p = LUT c (p - p % 256) :=
  LUT_of_IDX_eq c (IDX_sub_mod p).symm

/-- Settles O24: `LUT_eq_getElem` for every position, `LUT_zero` for admissible tables, `LUT_sub_mod` within a block. -/
theorem lookupIsTheIndexedEntry : Obligations.LookupIsTheIndexedEntry :=
  ⟨LUT_eq_getElem, LUT_zero, LUT_sub_mod⟩

end Sys2Proof.Machine
end

section
/-!
PROOFS of the statements about the phase accumulator (41_phase_accumulator.md): what `PHASE` writes to `T`, what it samples, and that no
other operation reads the input ports.
-/

namespace Sys2Proof.Machine

/-- The value that `PHASE` writes to `T` (41_phase_accumulator.md R78). -/
theorem exec_phase_regT {s t : State} (h : exec .phase s = .next t) : t.regT = tQuot (phProd (eRed (elapsedMicros s))) := by
  rw [exec_phase] at h; injection h with h; subst h; rfl

/-- What `PHASE` writes beside `T` and the count of draws; the other fields are those it found. -/
theorem exec_phase_frame {s t : State} (h : exec .phase s = .next t) :
    t = { s with regT := t.regT, stepReg := 1, draws := t.draws, history := s.history ++ [.sampled (elapsedMicros s)] } := by
  rw [exec_phase, countElapsedDraw_eq] at h; injection h with h; subst h; rfl

/-- A listed number that fits the port's `ELAPSED_W` wires is sampled as it is (10_state.md R14). -/
theorem elapsedMicros_of_listed {s : State} {v : Nat} (h : (currentInput s).elapsedMicros = some v)
    (hv : v < 2 ^ s.config.elapsedW) : elapsedMicros s = v := by
  simp only [elapsedMicros, h, Nat.mod_eq_of_lt hv]

/-- An operation other than `PHASE` does not read the inputs: from other inputs it does the same and keeps those. -/
theorem exec_with_inputs {i : Instr} {s t : State} (v : List HostInput) (hi : i ≠ .phase) (h : exec i s = .next t) :
    exec i { s with inputs := v } = .next { t with inputs := v } := by
  cases i
  case phase => exact absurd rfl hi
  all_goals injection h with h; subst h; rfl

/-- Settles O18: the value of `T` is `PHASE` of the sampled number (`phase_path_toNat`), the rest is the frame and the lemmas above. -/
theorem phaseOperation : Obligations.PhaseOperation := by
  intro s
  obtain ⟨t, ht⟩ := exec_next .phase s
  have hT : t.regT.toNat = PHASE (elapsedMicros s) := by rw [exec_phase_regT ht, phase_path_toNat]
  refine ⟨⟨t, ht, hT, Nat.le_of_lt_succ t.regT.isLt, fun he => ?_, exec_phase_frame ht⟩, fun v hin hv => ?_,
    fun i v t hi h => exec_with_inputs v hi h⟩
  · rw [he] at hT
    exact BitVec.eq_of_toNat_eq hT
  · exact elapsedMicros_of_listed hin (Nat.lt_of_le_pred (Nat.two_pow_pos _) hv)

end Sys2Proof.Machine
end

section
/-!
PROOFS of the statements about the multiplexer, the scaler and the two lookup operations (42_mux_and_scaler.md): the two passes through
the one multiplier are exact, and each lookup writes the table word at its position.
-/

namespace Sys2Proof.Machine

/-! ### The scaler (42_mux_and_scaler.md R82, R83) -/

/-- The word-level multiplexer and multiplier compute the function-level `SCALE`, in both passes. -/
theorem pos_mult_toNat (sel : Bool) (t : BitVec 15) (f : BitVec 12) :
    (pos t (mult sel f)).toNat = SCALE sel t.toNat f.toNat := by
  rw [pos_toNat, mult_toNat, SCALE]

/-- `T` = 0 gives position 0, whatever the multiplexer selects. -/
theorem pos_zero (m : BitVec 12) : pos 0 m = 0 := by
  apply BitVec.eq_of_toNat_eq
  rw [pos_toNat]
  exact Nat.zero_mul _

/-- Settles O27: the product is `SCALE` by `pos_mult_toNat`, its maxima are those of `pos_values_exact`. -/
theorem scalerIsExact : Obligations.ScalerIsExact := by
  refine ⟨fun f => ⟨rfl, rfl⟩, fun sel t f => ⟨pos_mult_toNat sel t f, pos_mult_toNat sel t f⟩, fun t f => ?_,
    fun sel f => pos_zero _, pos_toNat _ _, pos_toNat _ _⟩
  obtain ⟨-, hcarrier, hmodulation⟩ := pos_values_exact t f
  exact ⟨hmodulation, hcarrier⟩

/-! ### The looked-up word at a known index -/

/-- With the default table a lookup reads the listing (20_memory.md R40). -/
theorem LUT_of_default {c : Config} {p i : Nat} (hc : c.sineTable = sineTableDefault) (hp : IDX p = i) (hi : i < 256) :
    LUT c p = (sineTableDefault[i]).toNat := by
  subst hp
  simp only [LUT_eq_getElem, hc]

/-! ### `LUTM` (42_mux_and_scaler.md R85) -/

theorem exec_lutm_regM {s t : State} (h : exec .lutm s = .next t) :
    t.regM = romQ s.config (pos s.regT (mult false s.freq)) := by
  rw [exec_lutm] at h; injection h with h; subst h; rfl

/-- `LUTM` writes `M` and `STEP`; the other fields are those it found. -/
theorem exec_lutm_frame {s t : State} (h : exec .lutm s = .next t) : t = { s with regM := t.regM, stepReg := 2 } := by
  rw [exec_lutm] at h; injection h with h; subst h; rfl

/-- Settles O19: `M` is the word at `T[13:6]` by `idx_modulation`, which is `LUT(T*4)` by `lutm_path_toNat`. -/
theorem lutmOperation : Obligations.LutmOperation := by
  intro s
  obtain ⟨t, ht⟩ := exec_next .lutm s
  have hword : t.regM = memRead s.config (s.regT.extractLsb' 6 8) := by rw [exec_lutm_regM ht, romQ, idx_modulation]
  have hM : t.regM.toNat = LUT s.config (s.regT.toNat * 4) := by rw [exec_lutm_regM ht, lutm_path_toNat]
  have hT : s.regT.toNat ≤ 32767 := Nat.le_of_lt_succ s.regT.isLt
  refine ⟨⟨t, ht, hword, hM, exec_lutm_frame ht, fun h0 hadm => ?_, fun hpeak hdef => ?_⟩, Nat.mul_le_mul_right 4 hT, ?_⟩
  · rw [h0] at hM
    exact BitVec.eq_of_toNat_eq (hM.trans (LUT_zero s.config hadm))
  · rw [hpeak] at hM
    exact BitVec.eq_of_toNat_eq (hM.trans (LUT_of_default (i := 64) hdef rfl (by decide)))
  · refine ⟨?_, ?_, ?_, ?_, ?_⟩
    all_goals intro hcorner; rw [hcorner]; rfl

/-! ### `LUTC` (42_mux_and_scaler.md R86) -/

theorem exec_lutc_sample {s t : State} (h : exec .lutc s = .next t) :
    t.sample = romQ s.config (pos s.regT (mult true s.freq)) := by
  rw [exec_lutc] at h; injection h with h; subst h; rfl

/-- `LUTC` writes `SAMPLE` and `STEP`; the other fields are those it found. -/
theorem exec_lutc_frame {s t : State} (h : exec .lutc s = .next t) : t = { s with sample := t.sample, stepReg := 4 } := by
  rw [exec_lutc] at h; injection h with h; subst h; rfl

/-- Settles O21: `SAMPLE` is `LUT(T*FREQ)` by `lutc_path_toNat`; its corners are lookups at the indices 0 and 112. -/
theorem lutcOperation : Obligations.LutcOperation := by
  intro s
  obtain ⟨t, ht⟩ := exec_next .lutc s
  have hsample : t.sample.toNat = LUT s.config (s.regT.toNat * s.freq.toNat) := by rw [exec_lutc_sample ht, lutc_path_toNat]
  have hT : s.regT.toNat ≤ 32767 := Nat.le_of_lt_succ s.regT.isLt
  refine ⟨t, ht, hsample, exec_lutc_frame ht, fun hf => Nat.mul_le_mul hT hf, fun h0 hadm => ?_, fun hTval hfreq => ?_⟩
  · have hpos : s.regT.toNat * s.freq.toNat = 0 := by rw [h0]; exact Nat.zero_mul _
    rw [hpos] at hsample
    exact BitVec.eq_of_toNat_eq (hsample.trans (LUT_zero s.config hadm))
  · have hidx : IDX (s.regT.toNat * s.freq.toNat) = 112 := by rw [hTval, hfreq]; rfl
    exact ⟨hidx, fun hdef => BitVec.eq_of_toNat_eq (hsample.trans (LUT_of_default hdef hidx (by decide)))⟩

end Sys2Proof.Machine
end

section
/-!
PROOFS of the statements about the fixed-point modulator (43_fixed_point_modulator.md): the frequency function as a non-decreasing map between
its two ends, and the operation that writes its value to `FREQ`.
-/

namespace Sys2Proof.Machine

/-! ### The frequency function (43_fixed_point_modulator.md R93, R94) -/

theorem FMOD_mono {m m' : Nat} (h : m ≤ m') : FMOD m ≤ FMOD m' :=
  Nat.add_le_add_left (Nat.div_le_div_right (Nat.mul_le_mul_left 1000 h)) 1000

theorem le_FMOD (m : Nat) : 1000 ≤ FMOD m :=
  Nat.le_add_right 1000 _

theorem FMOD_at_word_max : FMOD 65535 = 2999 := rfl

/-- The upper end holds for every 16-bit word, also for the 65535 that no admissible table has (43_fixed_point_modulator.md R95). -/
theorem FMOD_le {m : Nat} (h : m ≤ 65535) : FMOD m ≤ 2999 :=
  FMOD_at_word_max ▸ FMOD_mono h

/-- Settles O28: the range by `le_FMOD` and `FMOD_le`; the listed values compute. -/
theorem frequencyFunction : Obligations.FrequencyFunction :=
  ⟨FMOD_eq, fun _ _ h => FMOD_mono h, fun m hm => ⟨le_FMOD m, FMOD_le (Nat.le_succ_of_le hm)⟩,
    rfl, rfl, rfl, rfl, rfl, rfl, FMOD_at_word_max, rfl⟩

/-! ### `FMOD` (43_fixed_point_modulator.md R95) -/

/-- The operation writes the frequency function of `M` to `FREQ`. -/
theorem exec_fmod_freq_toNat {s t : State} (h : exec .fmod s = .next t) : t.freq.toNat = FMOD s.regM.toNat := by
  rw [exec_fmod] at h; injection h with h; subst h
  exact fmod_path_toNat s.regM

/-- `FREQ` after the operation, for a known content of `M`. -/
theorem exec_fmod_freq_of_regM {s t : State} {m : Word} {f : BitVec 12} (h : exec .fmod s = .next t) (hm : s.regM = m)
    (hf : FMOD m.toNat = f.toNat) : t.freq = f := by
  subst hm
  exact BitVec.eq_of_toNat_eq ((exec_fmod_freq_toNat h).trans hf)

/-- `FMOD` writes `FREQ` and `STEP`; the other fields are those it found. -/
theorem exec_fmod_frame {s t : State} (h : exec .fmod s = .next t) : t = { s with freq := t.freq, stepReg := 3 } := by
  rw [exec_fmod] at h; injection h with h; subst h; rfl

/-- Settles O20: `FREQ` is the frequency function of `M`, so its range is that of a 16-bit operand and its corners are values of the function. -/
theorem fmodOperation : Obligations.FmodOperation := by
  intro s
  obtain ⟨t, ht⟩ := exec_next .fmod s
  have hfreq : t.freq.toNat = FMOD s.regM.toNat := exec_fmod_freq_toNat ht
  have hM : s.regM.toNat ≤ 65535 := Nat.le_of_lt_succ s.regM.isLt
  have hlow : 1000 ≤ t.freq.toNat := by rw [hfreq]; exact le_FMOD _
  have hhigh : t.freq.toNat ≤ 2999 := by rw [hfreq]; exact FMOD_le hM
  exact ⟨t, ht, hfreq, hlow, hhigh, exec_fmod_frame ht, fun h0 => exec_fmod_freq_of_regM ht h0 rfl,
    fun hpeak => exec_fmod_freq_of_regM ht hpeak rfl, fun hmax => exec_fmod_freq_of_regM ht hmax rfl,
    fun hmiddle => exec_fmod_freq_of_regM ht hmiddle rfl⟩

end Sys2Proof.Machine
end

section
/-!
PROOFS of the statements about the duty mapper (44_pwm_duty_mapper.md): the duty function, the widths that hold its product and quotient, and the
operation that writes its value to `DUTY` and ends the transaction.
-/

namespace Sys2Proof.Machine

/-! ### The duty function (44_pwm_duty_mapper.md R98) -/

theorem DUTYMAP_eq (c : Config) (s : Nat) : DUTYMAP c s = (s * c.dutyNum) / c.dutyDen := rfl

theorem DUTYMAP_zero (c : Config) : DUTYMAP c 0 = 0 := by
  rw [DUTYMAP_eq, Nat.zero_mul, Nat.zero_div]

theorem DUTYMAP_mono (c : Config) {s s' : Nat} (h : s ≤ s') : DUTYMAP c s ≤ DUTYMAP c s' :=
  Nat.div_le_div_right (Nat.mul_le_mul_right c.dutyNum h)

/-- Settles O29: the configuration itself carries the proof that its divisor is at least 1. -/
theorem dutyFunction : Obligations.DutyFunction :=
  fun c => ⟨c.dutyDen_pos, DUTYMAP_eq c, DUTYMAP_zero c, fun _ _ h => DUTYMAP_mono c h⟩

/-! ### The widths (44_pwm_duty_mapper.md R100) -/

/-- `bits(v)` is the least width of at least 1 that holds `v` (00_scope.md R9). -/
theorem bits_le_iff {v n : Nat} (hn : 1 ≤ n) : bits v ≤ n ↔ v < 2 ^ n :=
  ⟨fun h => (lt_two_pow_bits v).trans_le (Nat.pow_le_pow_right (by decide) h), bits_le_of_lt hn⟩

/-- A number from `2^n` on and below `2^(n+1)` has `n + 1` bits. -/
theorem bits_eq_succ {v n : Nat} (hlow : 2 ^ n ≤ v) (hhigh : v < 2 ^ (n + 1)) : bits v = n + 1 := by
  have hlt : 2 ^ n < 2 ^ bits v := hlow.trans_lt (lt_two_pow_bits v)
  exact Nat.le_antisymm ((bits_le_iff (Nat.succ_pos n)).2 hhigh) ((Nat.pow_lt_pow_iff_right (by decide)).1 hlt)

/-- `DUTY_W` of a configuration whose duty parameters are known. -/
theorem dutyW_of_params {c : Config} {num den : Nat} (hnum : c.dutyNum = num) (hden : c.dutyDen = den) :
    dutyW c = bits ((65535 * num) / den) := by
  rw [dutyW, hnum, hden]

/-- Settles O31: nothing is truncated by `duty_values_exact`, `DUTY_W` is least by `bits_le_iff`, and each listed width holds the number
between two powers of two that it is the width of. -/
theorem dutyWidthsHold : Obligations.DutyWidthsHold := by
  refine ⟨fun c s => ?_, fun c n hn => bits_le_iff hn, fun c hnum hden => ⟨?_, ?_⟩, fun c hnum hden => ⟨?_, ?_⟩,
    fun c hnum hden => ?_, fun c hnum hden => ?_⟩
  · obtain ⟨hprod, hquot, -⟩ := duty_values_exact c s
    exact ⟨hprod, hquot⟩
  · rw [hnum, bits_eq_succ (n := 6) (by decide) (by decide)]
  · rw [dutyW_of_params hnum hden, bits_eq_succ (n := 6) (by decide) (by decide)]
  · rw [hnum, bits_eq_succ (n := 5) (by decide) (by decide)]
  · rw [dutyW_of_params hnum hden, bits_eq_succ (n := 6) (by decide) (by decide)]
  · rw [dutyW_of_params hnum hden, bits_eq_succ (n := 7) (by decide) (by decide)]
  · rw [dutyW_of_params hnum hden, bits_eq_succ (n := 9) (by decide) (by decide)]

/-! ### `DUTY` (44_pwm_duty_mapper.md R101) -/

/-- The operation writes the duty function of `SAMPLE` to `DUTY`. -/
theorem exec_duty_duty {s t : State} (h : exec .duty s = .next t) : t.duty = DUTYMAP s.config s.sample.toNat := by
  rw [exec_duty] at h; injection h with h; subst h
  exact duQ_toNat s.config s.sample

/-- `DUTY` after the operation, for known duty parameters and a known content of `SAMPLE`. -/
theorem exec_duty_duty_of_params {s t : State} {num den : Nat} {w : Word} (h : exec .duty s = .next t)
    (hnum : s.config.dutyNum = num) (hden : s.config.dutyDen = den) (hw : s.sample = w) :
    t.duty = (w.toNat * num) / den := by
  rw [exec_duty_duty h, DUTYMAP_eq, hnum, hden, hw]

/-- `DUTY` writes `DUTY`, `VALID` and `STEP` and records what it forwards; the other fields are those it found. -/
theorem exec_duty_frame {s t : State} (h : exec .duty s = .next t) :
    t = { s with duty := t.duty, valid := true, stepReg := 0, history := s.history ++ [.forwarded s.sample t.duty] } := by
  rw [exec_duty] at h; injection h with h; subst h; rfl

/-- No other operation writes the register `DUTY` (10_state.md R22). -/
theorem exec_keeps_duty {i : Instr} {s t : State} (hi : i ≠ .duty) (h : exec i s = .next t) : t.duty = s.duty := by
  cases i
  case duty => exact absurd rfl hi
  all_goals injection h with h; subst h; simp

/-- A step that is neither a reset step nor `DUTY` leaves the ports `duty` and `duty_valid` as they are. -/
theorem step_keeps_duty_ports {s t : State} (h : step s = .next t) (hr : rst s = false) (h4 : s.stepReg ≠ 4) :
    portDuty t = portDuty s ∧ portDutyValid t = portDutyValid s := by
  rcases step_cases h with ⟨hreset, -⟩ | ⟨-, -, i, u, hc, hu, rfl⟩
  · rw [hr] at hreset; cases hreset
  · have hi : i ≠ .duty := by
      rintro rfl
      exact h4 hc
    have hduty : u.duty = s.duty := exec_keeps_duty hi hu
    have hvalid : u.valid = s.valid := by simp [exec_valid hu, hi]
    exact ⟨hduty, hvalid⟩

/-- Settles O22: `DUTY` is the duty function of `SAMPLE`, so the corners are its values for the default parameters; every other step keeps the
ports by `step_keeps_duty_ports`. -/
theorem dutyOperation : Obligations.DutyOperation := by
  refine ⟨fun s => ?_, fun s t h hr h4 => step_keeps_duty_ports h hr h4⟩
  obtain ⟨t, ht⟩ := exec_next .duty s
  refine ⟨t, ht, exec_duty_duty ht, exec_duty_frame ht, fun hnum hden => ?_⟩
  have hcorner (w : Word) (hw : s.sample = w) : t.duty = (w.toNat * 100) / 65534 := exec_duty_duty_of_params ht hnum hden hw
  exact ⟨hcorner 0, hcorner 655, hcorner 656, hcorner 32767, hcorner 65533, hcorner 65534, hcorner 45306⟩

end Sys2Proof.Machine
end

section
/-!
PROOFS of the statements about the sample transaction (45_sample_transaction.md): the advance of `STEP`, and the value of the transaction at time
zero.
-/

namespace Sys2Proof.Machine

/-! ### The step counter (45_sample_transaction.md R107) -/

theorem step_stepReg_of_reset {s t : State} (h : step s = .next t) (hr : rst s = true) : t.stepReg = 0 := by
  rw [step_reset s hr] at h; injection h with h; subst h
  rw [nextInputs_stepReg, resetStep_stepReg]

/-- A step with `rst` = 0 runs the operation whose code `STEP` holds, so `STEP` advances from that code. -/
theorem step_stepReg_toNat {s t : State} (h : step s = .next t) (hr : rst s = false) :
    t.stepReg.toNat = (s.stepReg.toNat + 1) % 5 := by
  rcases step_cases h with ⟨hreset, -⟩ | ⟨-, -, i, u, hc, hu, rfl⟩
  · rw [hr] at hreset; cases hreset
  · rw [nextInputs_stepReg, exec_stepReg_toNat hu, hc]

/-- Settles O12: the advance of an operation, of a step that runs one, and the reset step. -/
theorem stepCounterAdvances : Obligations.StepCounterAdvances :=
  ⟨fun _ _ _ h => exec_stepReg_toNat h, fun _ _ h hr => step_stepReg_toNat h hr, fun _ _ h hr => step_stepReg_of_reset h hr⟩

/-! ### The value at time zero (45_sample_transaction.md R112) -/

/-- Phase 0 is the first 62 microseconds of every outer period: 61 * 32768 is below 2000000, 62 * 32768 is not. -/
theorem PHASE_eq_zero_iff (e : Nat) : PHASE e = 0 ↔ e % 2000000 ≤ 61 := by
  rw [PHASE_eq]; omega

/-- Time 0 scales to position 0 in both passes, whatever the frequency. -/
theorem SCALE_zero (sel : Bool) (f : Nat) : SCALE sel 0 f = 0 :=
  Nat.zero_mul _

section
variable {c : Config} {e : Nat} (hadm : c.sineTable.admissible = true) (hphase : PHASE e = 0)
include hadm hphase

theorem MAG_of_PHASE_zero : MAG c e = 32767 := by
  rw [MAG, hphase, SCALE_zero, LUT_zero c hadm]

theorem FREQOF_of_PHASE_zero : FREQOF c e = 1999 := by
  rw [FREQOF, MAG_of_PHASE_zero hadm hphase, FMOD_eq]

/-- The carrier pass reads position 0 too, so the frequency makes no difference. -/
theorem SIREN_of_PHASE_zero : SIREN c e = 32767 := by
  rw [SIREN, hphase, SCALE_zero, LUT_zero c hadm]

theorem DUTYOF_of_PHASE_zero : DUTYOF c e = (32767 * c.dutyNum) / c.dutyDen := by
  rw [DUTYOF, SIREN_of_PHASE_zero hadm hphase, DUTYMAP_eq]

end

/-- Settles O37: the times of phase 0 by `PHASE_eq_zero_iff`; both passes read entry 0 of the table, which is 32767, and the rest follows from it. -/
theorem valueAtTimeZero : Obligations.ValueAtTimeZero := by
  refine fun c e hadm => ⟨PHASE_eq_zero_iff e, fun hphase => ⟨MAG_of_PHASE_zero hadm hphase, FREQOF_of_PHASE_zero hadm hphase,
    SIREN_of_PHASE_zero hadm hphase, fun hnum hden => ?_, fun hnum hden => ?_⟩⟩
  all_goals rw [DUTYOF_of_PHASE_zero hadm hphase, hnum, hden]

end Sys2Proof.Machine
end

section
/-!
PROOFS of the statements about exceptions (60_exceptions.md): no operation stops.
-/

namespace Sys2Proof.Machine

/-- Settles O5: `exec_next`, since each of the five operations answers the state that its own equation (`exec_phase` to `exec_duty`) names,
with no condition on the registers or the inputs. -/
theorem everyOperationCompletes : Obligations.EveryOperationCompletes :=
  fun i s => exec_next i s

end Sys2Proof.Machine
end

section
/-!
PROOFS of the statements about reset and hazards (70_reset_and_hazards.md): the reset step, where a reset comes from, and the one step that reads
`elapsed_micros`.
-/

namespace Sys2Proof.Machine

/-! ### What a step reads of the inputs (70_reset_and_hazards.md R131, R139) -/

/-- Once the inputs have moved on, it makes no difference what was at their front. -/
theorem nextInputs_with_inputs {s : State} {ins : List HostInput} (h : ins.tail = s.inputs.tail) :
    nextInputs { s with inputs := ins } = nextInputs s := by
  simp only [nextInputs, h]

/-- The reset step does not read the inputs. -/
theorem resetStep_with_inputs (s : State) (ins : List HostInput) :
    resetStep { s with inputs := ins } = { resetStep s with inputs := ins } := rfl

/-- The four kinds of step, for every state: a reset step, the stuck sequencer, a reserved code, an operation. -/
theorem step_kinds (s : State) :
    rst s = true ∨ (rst s = false ∧ s.resetSeen = false) ∨ (rst s = false ∧ s.resetSeen = true ∧ 4 < s.stepReg.toNat) ∨
    (rst s = false ∧ s.resetSeen = true ∧ ∃ i, s.stepReg = encode i) := by
  cases rst s with
  | true => exact .inl rfl
  | false =>
    cases s.resetSeen with
    | false => exact .inr (.inl ⟨rfl, rfl⟩)
    | true =>
      rcases Nat.lt_or_ge 4 s.stepReg.toNat with hw | hw
      · exact .inr (.inr (.inl ⟨rfl, rfl, hw⟩))
      · exact .inr (.inr (.inr ⟨rfl, rfl, (wf_iff_exists_encode _).1 (decide_eq_true hw)⟩))

/-- A step that is no `PHASE` step reads `rst` alone of the inputs of this step: every outcome is the same, the fault and the refusal included. -/
theorem step_with_inputs {s : State} {ins : List HostInput} (hrst : rst { s with inputs := ins } = rst s)
    (htail : ins.tail = s.inputs.tail) (h : s.stepReg ≠ 0 ∨ rst s = true) : step { s with inputs := ins } = step s := by
  rcases step_kinds s with hr | ⟨hr, hseen⟩ | ⟨hr, hseen, hw⟩ | ⟨hr, hseen, i, hi⟩
  · rw [step_reset _ (hrst.trans hr), step_reset s hr, resetStep_with_inputs, nextInputs_with_inputs (s := resetStep s) htail]
  · rw [step_stuck _ (hrst.trans hr) hseen, step_stuck s hr hseen]
  · rw [step_reserved _ (hrst.trans hr) hseen hw, step_reserved s hr hseen hw]
  · have h0 : s.stepReg ≠ 0 := h.resolve_right (by simp [hr])
    have hphase : i ≠ .phase := by
      rintro rfl
      exact h0 hi
    have hd : decode s.stepReg = .ok i := (decode_ok_iff _ i).2 hi
    obtain ⟨u, hu⟩ := exec_next i s
    obtain ⟨hin, -, -⟩ := exec_keeps hu
    rw [step_run _ _ i (hrst.trans hr) hseen hd (exec_with_inputs ins hphase hu), step_run s u i hr hseen hd hu,
      nextInputs_with_inputs (htail.trans (congrArg _ hin.symm))]

/-- Settles O17: the changed input has the same `rst` and the same inputs behind it, so `step_with_inputs` applies. -/
theorem inputSampledOnlyByPhase : Obligations.InputSampledOnlyByPhase :=
  fun _ _ h => step_with_inputs rfl rfl h

/-- Settles O8: each value is one that the reset step writes, and `step_with_inputs` says that it does not read `elapsed_micros`. -/
theorem resetStepState : Obligations.ResetStepState :=
  fun s hr => ⟨⟨_, step_reset s hr, rfl, rfl, rfl, rfl, rfl, rfl, rfl, rfl⟩, fun _ => step_with_inputs hr.symm rfl (.inr hr)⟩

/-! ### Where a reset comes from (70_reset_and_hazards.md R132) -/

/-- No operation records a reset. -/
theorem count_reset_execEvents (i : Instr) (s : State) : (execEvents i s).count .reset = 0 := by
  cases i <;> rfl

/-- A step with `rst` = 0 records no reset, and leaves the power-up flag as it is. -/
theorem step_records_no_reset {s t : State} (hr : rst s = false) (h : step s = .next t) :
    t.history.count .reset = s.history.count .reset ∧ t.resetSeen = s.resetSeen := by
  rcases step_cases h with ⟨hreset, -⟩ | ⟨-, -, i, u, -, hu, rfl⟩
  · rw [hr] at hreset; cases hreset
  · obtain ⟨-, -, hseen⟩ := exec_keeps hu
    refine ⟨?_, hseen⟩
    rw [nextInputs_history, exec_history hu, List.count_append, count_reset_execEvents, Nat.add_zero]

/-! ### `rst` held -/

theorem rst_eq_true_of_resetHeld {n : Nat} {s : State} (h : resetHeld (n + 1) s = true) : rst s = true := by
  unfold resetHeld at h
  unfold rst currentInput
  cases hi : s.inputs <;> simp_all

theorem resetHeld_tail {n : Nat} {s t : State} (h : resetHeld (n + 1) s = true) (ht : t.inputs = s.inputs.tail) :
    resetHeld n t = true := by
  unfold resetHeld at *
  rw [ht]
  cases hi : s.inputs <;> simp_all

/-- The reset state: the values that 10_state.md R30 gives the registers, after a reset step. -/
structure InResetState (s : State) : Prop where
  resetSeen : s.resetSeen = true
  stepReg : s.stepReg = 0
  valid : s.valid = false
  duty : s.duty = 0
  sample : s.sample = 0

/-- Whatever state it starts from, a reset step leaves the reset state. -/
theorem inResetState_resetStep (s : State) : InResetState (nextInputs (resetStep s)) :=
  ⟨rfl, rfl, rfl, rfl, rfl⟩

/-- With `rst` held every step is a reset step: the run ends in the reset state, with one `reset` event a step. -/
theorem runSteps_of_resetHeld {n : Nat} {s : State} (h : resetHeld (n + 1) s = true) :
    ∃ t, runSteps (n + 1) s = .next t ∧ InResetState t ∧ t.history = s.history ++ List.replicate (n + 1) .reset := by
  induction n generalizing s with
  | zero =>
    have hstep := step_reset s (rst_eq_true_of_resetHeld h)
    exact ⟨_, (runSteps_one s).trans hstep, inResetState_resetStep s, rfl⟩
  | succ n ih =>
    have hstep := step_reset s (rst_eq_true_of_resetHeld h)
    obtain ⟨t, hrun, hreset, hhist⟩ := ih (resetHeld_tail h (nextInputs_inputs (resetStep s)))
    refine ⟨t, (runSteps_succ _ hstep).trans hrun, hreset, ?_⟩
    rw [hhist, nextInputs_history, resetStep_history, List.append_assoc, List.singleton_append, ← List.replicate_succ]

/-- Settles O10: `step_stuck` before the first reset step, `step_records_no_reset` with `rst` = 0, `runSteps_of_resetHeld` with `rst` held. -/
theorem resetComesFromThePortOnly : Obligations.ResetComesFromThePortOnly := by
  refine ⟨fun s hseen hr => step_stuck s hr hseen, fun s t hr h => step_records_no_reset hr h, fun n s h => ?_⟩
  obtain ⟨t, hrun, ⟨hseen, hstep, hvalid, hduty, hsample⟩, hhist⟩ := runSteps_of_resetHeld h
  exact ⟨t, hrun, hseen, hstep, hvalid, hduty, hsample, hhist⟩

end Sys2Proof.Machine
end

section
/-!
PROOFS of the statements about the operation table (30_encoding.md) and about one step (10_state.md): the encoder inverts the decoder, a step runs the
operation that `STEP` or a placed word selects, which fields it leaves alone, and that a legal block never stops.
-/

namespace Sys2Proof.Machine

/-! ### The operation table (30_encoding.md section 4) -/

/-- The masks of the table compare all three bits (30_encoding.md R59). -/
theorem eq_value_of_hits : ∀ w : ControlWord, ∀ r ∈ opTable, r.hits w = true → w = r.value := by decide

/-- No two rows of the table have one code. -/
theorem opTable_value_injective : ∀ r₁ ∈ opTable, ∀ r₂ ∈ opTable, r₁.value = r₂.value → r₁ = r₂ := by decide

/-- Settles O2: the round trips by `decode_ok_iff`; two rows that one word falls under have that word as their code. -/
theorem decodeInvertsEncode : Obligations.DecodeInvertsEncode :=
  ⟨decode_encode, fun w i => (decode_ok_iff w i).1, fun w r₁ h₁ r₂ h₂ hits₁ hits₂ =>
    opTable_value_injective r₁ h₁ r₂ h₂ ((eq_value_of_hits w r₁ h₁ hits₁).symm.trans (eq_value_of_hits w r₂ h₂ hits₂))⟩

/-! ### The selected operation -/

/-- The step of the selected operation, with the inputs written as the tail of those it started from. -/
theorem step_eq_exec {s t : State} {i : Instr} (hr : rst s = false) (hseen : s.resetSeen = true)
    (hd : decode s.stepReg = .ok i) (ht : exec i s = .next t) : step s = .next { t with inputs := s.inputs.tail } := by
  obtain ⟨hin, -, -⟩ := exec_keeps ht
  rw [step_run s t i hr hseen hd ht, nextInputs_of_inputs_eq hin]

/-- Settles O3: `step_eq_exec`; the two stops do not occur, since every operation answers a next state. -/
theorem stepRunsSelectedOperation : Obligations.StepRunsSelectedOperation := by
  intro s i hr hseen hd
  obtain ⟨u, hu⟩ := exec_next i s
  refine ⟨fun t ht => step_eq_exec hr hseen hd ht, fun r hstop => ?_, fun r hstop => ?_⟩
  all_goals rw [hu] at hstop; cases hstop

theorem decode_of_decodeTableWord {nbits w : Nat} {i : Instr} (h : decodeTableWord nbits w = some i) :
    decode (controlWord nbits w) = .ok i := by
  unfold decodeTableWord at h
  split at h
  next j hj => injection h with h; rw [hj, h]
  next => cases h

/-- Placing a word releases `rst` for the step that runs it. -/
theorem rst_withFetchWord (s : State) (nbits w : Nat) : rst (s.withFetchWord nbits w) = false := by
  rw [rst, currentInput_withFetchWord]

theorem elapsedMicros_withFetchWord (s : State) (nbits w : Nat) : elapsedMicros (s.withFetchWord nbits w) = elapsedMicros s := by
  rw [elapsedMicros, currentInput_withFetchWord]
  rfl

/-- Settles O4: the placed word is the content of `STEP`, so `step_eq_exec` applies. -/
theorem placedWordRuns : Obligations.PlacedWordRuns := by
  intro s nbits w i h
  refine ⟨fun t ht => ?_, rfl, rfl, rfl, rfl, elapsedMicros_withFetchWord s nbits w⟩
  rw [step_eq_exec (rst_withFetchWord s nbits w) rfl (decode_of_decodeTableWord h) ht, withFetchWord_inputs_tail]

/-! ### The frame of a step -/

/-- Settles O15: by the five operations, each of which names what it writes. -/
theorem eachRegisterHasOneWriter : Obligations.EachRegisterHasOneWriter := by
  intro s t h hr
  obtain ⟨-, ⟨hc, rfl⟩ | ⟨hc, rfl⟩ | ⟨hc, rfl⟩ | ⟨hc, rfl⟩ | ⟨hc, rfl⟩⟩ := step_run_cases h hr
  all_goals simp [hc, portSample, portDuty, portDutyValid]

/-! ### Legal runs -/

/-- Whatever state it starts from, a step leaves a legal block. -/
theorem step_legal {s t : State} (h : step s = .next t) : Legal t := by
  refine ⟨?_, step_stepReg_wf h⟩
  rcases step_cases h with ⟨-, rfl⟩ | ⟨-, hseen, i, u, -, hu, rfl⟩
  · rfl
  · obtain ⟨-, -, hkeep⟩ := exec_keeps hu
    exact hkeep.trans hseen

/-- Settles O7: induction over the number of steps, each of which goes on to a legal state. -/
theorem legalRunsNeverStop : Obligations.LegalRunsNeverStop := by
  intro n
  induction n with
  | zero => exact fun s hs => ⟨s, rfl, hs⟩
  | succ n ih =>
    intro s hs
    obtain ⟨u, hstep, hu, -⟩ := sequencerAlwaysSteps s hs
    obtain ⟨t, hrun, ht⟩ := ih u hu
    exact ⟨t, (runSteps_succ n hstep).trans hrun, ht⟩

end Sys2Proof.Machine
end

section
/-!
PROOFS of the statements about time (41_phase_accumulator.md): the reduction and the rescaling, the staircase of `PHASE`, the periods, and the wrap of
the host's counter (70_reset_and_hazards.md R138).
-/

namespace Sys2Proof.Machine

/-! ### `REDUCE` and `RESCALE` (R75, R76) -/

theorem REDUCE_eq (e : Nat) : REDUCE e = e % 2000000 := rfl

theorem REDUCE_le (e : Nat) : REDUCE e ≤ 1999999 :=
  Nat.le_of_lt_succ (Nat.mod_lt e (by decide))

theorem RESCALE_eq (r : Nat) : RESCALE r = (r * 32768) / 2000000 := rfl

/-- The fraction in lowest terms: both numbers are multiples of 128. -/
theorem RESCALE_eq_reduced (r : Nat) : RESCALE r = (r * 256) / 15625 := by
  rw [RESCALE_eq]; omega

theorem RESCALE_le {r : Nat} (h : r ≤ 1999999) : RESCALE r ≤ 32767 := by
  rw [RESCALE_eq]; omega

/-- Settles O25: the equations above; the corner cases compute. -/
theorem reductionAndRescaling : Obligations.ReductionAndRescaling :=
  ⟨fun e => ⟨REDUCE_eq e, REDUCE_le e⟩, fun r => ⟨RESCALE_eq r, RESCALE_eq_reduced r⟩, fun _ h => RESCALE_le h,
    by decide⟩

/-! ### The staircase (R77) -/

/-- The first count of the outer period at which `PHASE` reaches `t`: `t * 15625 / 256`, rounded up. -/
def stairStart (t : Nat) : Nat := (t * 15625 + 255) / 256

theorem le_PHASE_iff {e t : Nat} (he : e < 2000000) : t ≤ PHASE e ↔ stairStart t ≤ e := by
  rw [PHASE_eq, stairStart]; omega

/-- The step from one value to the next is 15625/256 counts, which is a little more than 61. -/
theorem stairStart_succ (t : Nat) : stairStart (t + 1) = stairStart t + 61 ∨ stairStart (t + 1) = stairStart t + 62 := by
  unfold stairStart; omega

theorem stairStart_le {t : Nat} (h : t ≤ 32768) : stairStart t ≤ 2000000 := by
  unfold stairStart; omega

/-- The counts with `PHASE` = `t` are those from the start of `t` up to the start of `t + 1`. -/
theorem PHASE_eq_iff {e t : Nat} (he : e < 2000000) : PHASE e = t ↔ stairStart t ≤ e ∧ e < stairStart (t + 1) := by
  rw [← le_PHASE_iff he, ← Nat.not_le, ← le_PHASE_iff he]
  omega

theorem PHASE_mono {e e' : Nat} (h : e ≤ e') (he' : e' < 2000000) : PHASE e ≤ PHASE e' :=
  (le_PHASE_iff he').2 (((le_PHASE_iff (h.trans_lt he')).1 le_rfl).trans h)

/-- Settles O26: the run of the value `t` begins at `stairStart t` and has the length that `stairStart_succ` gives. -/
theorem phaseIsAStaircase : Obligations.PhaseIsAStaircase := by
  refine ⟨fun e e' h he' => PHASE_mono h he', fun t ht => ?_⟩
  have hend : stairStart (t + 1) ≤ 2000000 := stairStart_le (Nat.succ_le_succ ht)
  rcases stairStart_succ t with hlen | hlen
  all_goals
    refine ⟨stairStart t, _, by decide, hlen ▸ hend, fun e he => ?_⟩
    rw [PHASE_eq_iff he, hlen]

/-! ### Periodicity (40_sine_lut_rom.md R70, R79, 45_sample_transaction.md R110) -/

theorem LUT_add_period (c : Config) (p k : Nat) : LUT c (p + 65536 * k) = LUT c p := by
  apply LUT_of_IDX_eq
  rw [IDX_eq_mod_div, IDX_eq_mod_div, Nat.add_mul_mod_self_left]

theorem PHASE_add_period (e k : Nat) : PHASE (e + 2000000 * k) = PHASE e := by
  rw [PHASE_eq, PHASE_eq, Nat.add_mul_mod_self_left]

/-- The sample depends on the time through its phase alone. -/
theorem SIREN_of_PHASE_eq {c : Config} {e e' : Nat} (h : PHASE e = PHASE e') : SIREN c e = SIREN c e' := by
  simp only [SIREN, FREQOF, MAG, h]

theorem SIREN_add_period (c : Config) (e k : Nat) : SIREN c (e + 2000000 * k) = SIREN c e :=
  SIREN_of_PHASE_eq (PHASE_add_period e k)

/-- Settles O35: the index drops multiples of 65536 and the reduction drops multiples of 2000000; the duty follows the sample. -/
theorem periodicity : Obligations.Periodicity :=
  ⟨LUT_add_period, PHASE_add_period, fun c e k =>
    ⟨SIREN_add_period c e k, congrArg (DUTYMAP c) (SIREN_add_period c e k)⟩⟩

/-! ### The wrap of the counter (R79, 70_reset_and_hazards.md R138) -/

/-- The outer period is a multiple of 5, and no power of 2 is. -/
theorem two_pow_mod_outerPeriod_ne_zero (w : Nat) : 2 ^ w % 2000000 ≠ 0 := by
  intro h
  have hfive : 5 ∣ 2 ^ w := Dvd.dvd.trans (by decide : 5 ∣ 2000000) (Nat.dvd_of_mod_eq_zero h)
  exact absurd (Nat.prime_five.dvd_of_dvd_pow hfive) (by decide)

theorem REDUCE_before_wrap_ne (w : Nat) : REDUCE (2 ^ w - 1) ≠ 1999999 := by
  have hmod := two_pow_mod_outerPeriod_ne_zero w
  have hpos := Nat.two_pow_pos w
  rw [REDUCE_eq]; omega

/-- Settles O36: the factor 5 of the outer period; the two named jumps compute. -/
theorem counterWrapBreaksThePeriod : Obligations.CounterWrapBreaksThePeriod :=
  ⟨two_pow_mod_outerPeriod_ne_zero, REDUCE_before_wrap_ne, by decide, by decide⟩

end Sys2Proof.Machine
end

section
/-!
PROOFS of the statements about the values of the sample: the default table (20_memory.md R41), the ranges (45_sample_transaction.md R109) and the exact
duty form (44_pwm_duty_mapper.md R102).
-/

namespace Sys2Proof.Machine

/-! ### The default table (20_memory.md R41): closed facts about the listing, one lemma a property -/

theorem sineTableDefault_admissible : sineTableDefault.admissible = true := by decide +kernel

theorem sineTableDefault_antisymmetric : ∀ i : Fin 128,
    (sineTableDefault[i.val]'(by omega)).toNat + (sineTableDefault[i.val + 128]'(by omega)).toNat = 65534 := by decide +kernel

theorem sineTableDefault_mirror : ∀ i : Fin 256,
    sineTableDefault[i.val] = sineTableDefault[(384 - i.val) % 256]'(Nat.mod_lt _ (by decide)) := by decide +kernel

theorem sineTableDefault_rises : ∀ i : Fin 128,
    (sineTableDefault[(i.val + 192) % 256]'(Nat.mod_lt _ (by decide))).toNat <
      (sineTableDefault[(i.val + 193) % 256]'(Nat.mod_lt _ (by decide))).toNat := by decide +kernel

/-- Settles O33: the four properties above and the named entries of the listing. -/
theorem defaultTableShape : Obligations.DefaultTableShape :=
  ⟨sineTableDefault_admissible, sineTableDefault_antisymmetric, sineTableDefault_mirror, sineTableDefault_rises,
    by decide +kernel⟩

/-! ### The ranges (45_sample_transaction.md R109) -/

/-- T-b is one of the constraints on an admissible table (20_memory.md R38). -/
theorem entriesInRange_of_admissible {tab : SineTable} (h : tab.admissible = true) : tab.entriesInRange = true := by
  simp only [SineTable.admissible, Bool.and_eq_true] at h
  obtain ⟨⟨⟨hrange, -⟩, -⟩, -⟩ := h
  exact hrange

/-- Settles O34: both lookups read table entries, and the two maps after them are non-decreasing. -/
theorem rangesOfTheSample : Obligations.RangesOfTheSample := by
  intro c e htable
  have hmag : MAG c e ≤ 65534 := LUT_le c htable _
  have hsiren : SIREN c e ≤ 65534 := LUT_le c htable _
  exact ⟨hsiren, hmag, le_FMOD _, FMOD_le (Nat.le_succ_of_le hmag), DUTYMAP_mono c hsiren⟩

/-! ### The exact duty form (44_pwm_duty_mapper.md R102, 70_reset_and_hazards.md R144) -/

section
variable {c : Config} (hden : c.dutyDen = 65534)
include hden

theorem DUTYMAP_exact_peak : DUTYMAP c 65534 = c.dutyNum := by
  rw [DUTYMAP_eq, hden, Nat.mul_div_cancel_left _ (by decide)]

/-- Below the peak the product is less than `N` whole divisors. -/
theorem DUTYMAP_exact_lt {s : Nat} (hnum : 1 ≤ c.dutyNum) (hs : s < 65534) : DUTYMAP c s < c.dutyNum := by
  rw [DUTYMAP_eq, hden]
  exact Nat.div_lt_of_lt_mul (Nat.mul_lt_mul_of_pos_right hs hnum)

/-- The inadmissible word 65535 adds `N` to the product of the peak, which is less than one more divisor. -/
theorem DUTYMAP_exact_word_max (hnum : c.dutyNum < 65534) : DUTYMAP c 65535 = c.dutyNum := by
  rw [DUTYMAP_eq, hden]; omega

end

/-- Settles O30: `DUTYMAP` is non-decreasing up to its value `N` at the peak, and less than `N` before the peak. -/
theorem exactDutyRange : Obligations.ExactDutyRange := by
  refine fun c hden => ⟨fun s hs => ?_, fun hnum s hs => ⟨fun hN => ?_, fun hpeak => ?_⟩, DUTYMAP_exact_word_max hden⟩
  · exact (DUTYMAP_mono c hs).trans_eq (DUTYMAP_exact_peak hden)
  · exact hs.eq_of_not_lt fun hlt => (DUTYMAP_exact_lt hden hnum hlt).ne hN
  · rw [hpeak, DUTYMAP_exact_peak hden]

end Sys2Proof.Machine
end

section
/-!
PROOFS of the statements about one transaction (45_sample_transaction.md sections 2 and 3, 70_reset_and_hazards.md sections 1 and 3): the word-level schedule
computes the function level, carries nothing over, and shows its results on the ports in order.
-/

namespace Sys2Proof.Machine

/-! ### The word-level paths in a transaction that sampled `e` -/

theorem MAG_eq (c : Config) (e : Nat) : MAG c e = LUT c (PHASE e * 4) := rfl
theorem SIREN_eq (c : Config) (e : Nat) : SIREN c e = LUT c (PHASE e * FREQOF c e) := rfl

section
variable {c : Config} {e : Nat}

theorem lutm_path_eq_MAG {t : BitVec 15} (f : BitVec 12) (hT : t.toNat = PHASE e) :
    (romQ c (pos t (mult false f))).toNat = MAG c e := by
  rw [lutm_path_toNat, hT, MAG_eq]

theorem fmod_path_eq_FREQOF {m : Word} (hM : m.toNat = MAG c e) : (freqSum (fmQ (fmProd m))).toNat = FREQOF c e := by
  rw [fmod_path_toNat, hM, FREQOF]

theorem lutc_path_eq_SIREN {t : BitVec 15} {f : BitVec 12} (hT : t.toNat = PHASE e) (hF : f.toNat = FREQOF c e) :
    (romQ c (pos t (mult true f))).toNat = SIREN c e := by
  rw [lutc_path_toNat, hT, hF, SIREN_eq]

theorem duQ_eq_DUTYOF {w : Word} (hS : w.toNat = SIREN c e) : (duQ c w).toNat = DUTYOF c e := by
  rw [duQ_toNat, hS, DUTYOF]

end

/-! ### The run of a transaction -/

/-- A run of some steps is its first step and the run of the others. -/
theorem runSteps_succ_inv {n : Nat} {s t : State} (h : runSteps (n + 1) s = .next t) :
    ∃ u, step s = .next u ∧ runSteps n u = .next t := by
  cases hs : step s with
  | next u => exact ⟨u, rfl, (runSteps_succ n hs).symm.trans h⟩
  | fault r => simp [runSteps, hs] at h
  | refused r => simp [runSteps, hs] at h

/-- What the block holds after the first four steps of a transaction that began at `s`: the function-level values of the sampled input in the
registers, the duty ports as they were, and `DUTY` as the next operation. -/
structure BeforeDuty (s t : State) : Prop where
  regT : t.regT.toNat = PHASE (elapsedMicros s)
  regM : t.regM.toNat = MAG s.config (elapsedMicros s)
  freq : t.freq.toNat = FREQOF s.config (elapsedMicros s)
  sample : t.sample.toNat = SIREN s.config (elapsedMicros s)
  duty : t.duty = s.duty
  valid : t.valid = s.valid
  stepReg : t.stepReg = 4
  resetSeen : t.resetSeen = true
  config : t.config = s.config
  history : t.history = s.history ++ [.sampled (elapsedMicros s)]
  inputs : t.inputs = s.inputs.drop 4

/-- Each of the first four steps writes the value of one function to its register, and none writes it again. -/
theorem transaction_until_duty {s : State} (hseen : s.resetSeen = true) (h0 : s.stepReg = 0) (hf : resetFree 5 s = true) :
    ∃ t u, runSteps 4 s = .next t ∧ BeforeDuty s t ∧ step t = .next u ∧
      u = nextInputs (record (setStep (setValid (setDuty t (duQ t.config t.sample).toNat)) 0)
        (.forwarded t.sample (duQ t.config t.sample).toNat)) := by
  obtain ⟨s1, s2, s3, s4, s5, e1, e2, e3, e4, e5, d1, d2, d3, d4, d5⟩ := transaction_steps s hseen h0 hf
  have hc1 : s1.config = s.config := by simp [d1]
  have hc3 : s3.config = s.config := by simp [d1, d2, d3]
  have hT : s1.regT.toNat = PHASE (elapsedMicros s) := by rw [d1]; exact phase_path_toNat _
  have hM : s2.regM.toNat = MAG s.config (elapsedMicros s) := by rw [d2, ← hc1]; exact lutm_path_eq_MAG _ hT
  have hF : s3.freq.toNat = FREQOF s.config (elapsedMicros s) := by rw [d3]; exact fmod_path_eq_FREQOF hM
  have hT3 : s3.regT = s1.regT := by simp [d2, d3]
  have hS : s4.sample.toNat = SIREN s.config (elapsedMicros s) := by
    rw [← hc3] at hF ⊢; rw [d4]; exact lutc_path_eq_SIREN (hT3 ▸ hT) hF
  refine ⟨s4, s5, by simp [runSteps, e1, e2, e3, e4], ⟨?_, ?_, ?_, hS, ?_, ?_, ?_, ?_, ?_, ?_, ?_⟩, e5, d5⟩
  · rw [← hT, ← hT3]; simp [d4]
  · rw [← hM]; simp [d3, d4]
  · rw [← hF]; simp [d4]
  all_goals simp [d1, d2, d3, d4, hseen, ← List.drop_one]

/-- Settles O38: `transaction_until_duty`, then the `DUTY` step maps the sample and records what it forwards. -/
theorem transactionResult : Obligations.TransactionResult := by
  intro s hseen h0 hf
  obtain ⟨t, u, hrun, ht, hstep, rfl⟩ := transaction_until_duty hseen h0 hf
  have hduty : (duQ t.config t.sample).toNat = DUTYOF s.config (elapsedMicros s) := by
    rw [ht.config]; exact duQ_eq_DUTYOF ht.sample
  refine ⟨_, (runSteps_add 4 1 hrun).trans ((runSteps_one t).trans hstep), ht.regT, ht.regM, ht.freq, ht.sample, hduty, rfl, rfl,
    ht.resetSeen, ht.config, ?_, ?_⟩
  · simp [ht.history]
  · simp [ht.inputs]

/-! ### No hidden state (10_state.md R29, R32) -/

/-- What a completed transaction leaves in the registers and on the ports is a function of the configuration and the sampled input. -/
theorem outputs_of_transaction {s t : State} (h0 : s.stepReg = 0) (hf : resetFree 5 s = true) (hrun : runSteps 5 s = .next t) :
    t.regT.toNat = PHASE (elapsedMicros s) ∧ t.regM.toNat = MAG s.config (elapsedMicros s) ∧
      t.freq.toNat = FREQOF s.config (elapsedMicros s) ∧ t.sample.toNat = SIREN s.config (elapsedMicros s) ∧
      t.duty = DUTYOF s.config (elapsedMicros s) ∧ t.valid = true := by
  obtain ⟨u, hstep, -⟩ := runSteps_succ_inv hrun
  obtain ⟨hseen, -⟩ := step_run_cases hstep (rst_eq_false_of_resetFree hf)
  obtain ⟨v, hv, hT, hM, hF, hS, hD, hV, -⟩ := transactionResult s hseen h0 hf
  rw [hrun] at hv; injection hv with hv; subst hv
  exact ⟨hT, hM, hF, hS, hD, hV⟩

/-- Settles O39: both transactions end with the same function values, by `outputs_of_transaction`. -/
theorem noHiddenState : Obligations.NoHiddenState := by
  intro s₁ s₂ t₁ t₂ hconfig h₁ h₂ hf₁ hf₂ he hrun₁ hrun₂
  obtain ⟨hT, hM, hF, hS, hD, hV⟩ := outputs_of_transaction h₁ hf₁ hrun₁
  rw [hconfig, he] at hM hF hS hD
  rw [he] at hT
  obtain ⟨hT', hM', hF', hS', hD', hV'⟩ := outputs_of_transaction h₂ hf₂ hrun₂
  exact ⟨hD.trans hD'.symm, hV.trans hV'.symm, BitVec.eq_of_toNat_eq (hS.trans hS'.symm), BitVec.eq_of_toNat_eq (hT.trans hT'.symm),
    BitVec.eq_of_toNat_eq (hM.trans hM'.symm), BitVec.eq_of_toNat_eq (hF.trans hF'.symm)⟩

/-! ### The first result (70_reset_and_hazards.md R133, R142) -/

/-- No port changes before the `LUTC` step. -/
theorem runSteps_keeps_ports_before_lutc {n : Nat} {s : State} (hs : Legal s) (hf : resetFree n s = true)
    (hn : s.stepReg.toNat + n ≤ 3) :
    ∃ t, runSteps n s = .next t ∧ portDutyValid t = portDutyValid s ∧ portDuty t = portDuty s ∧ portSample t = portSample s := by
  induction n generalizing s with
  | zero => exact ⟨s, rfl, rfl, rfl, rfl⟩
  | succ n ih =>
    have hr : rst s = false := rst_eq_false_of_resetFree hf
    obtain ⟨u, hstep, hu, -⟩ := sequencerAlwaysSteps s hs
    obtain ⟨-, -, -, hsample, hduty, -, -, hin⟩ := eachRegisterHasOneWriter s u hstep hr
    have hlt : s.stepReg.toNat < 3 := by omega
    have h3 : s.stepReg ≠ 3 := fun h => absurd hlt (by simp [h])
    have h4 : s.stepReg ≠ 4 := fun h => absurd hlt (by simp [h])
    have hnext : u.stepReg.toNat + n ≤ 3 := by have := step_stepReg_toNat hstep hr; omega
    obtain ⟨t, hrun, hv, hd, hw⟩ := ih hu (resetFree_tail hf hin) hnext
    exact ⟨t, (runSteps_succ n hstep).trans hrun, hv.trans (hduty h4).2, hd.trans (hduty h4).1, hw.trans (hsample h3)⟩

/-- A shorter run is free of reset too. -/
theorem resetFree_mono {m n : Nat} {s : State} (hmn : m ≤ n) (h : resetFree n s = true) : resetFree m s = true := by
  rw [resetFree, List.all_eq_true] at *
  exact fun i hi => h i ((List.take_sublist_take_left hmn).subset hi)

/-- Settles O40: from the reset state the ports stay at their reset values before `LUTC`, then `transaction_until_duty` and `transactionResult` say
what they show. -/
theorem firstResultAfterReset : Obligations.FirstResultAfterReset := by
  intro s hr hf
  have hstep := step_reset s hr
  obtain ⟨hseen, h0, hvalid, hduty, hsample⟩ := inResetState_resetStep s
  refine ⟨_, hstep, fun k hk => ?_, ?_⟩
  · rcases Nat.lt_or_ge 3 k with h3 | h3
    · obtain rfl : k = 4 := by omega
      obtain ⟨t, -, hrun, ht, -⟩ := transaction_until_duty hseen h0 hf
      exact ⟨t, hrun, ht.valid, ht.duty, fun h => absurd h (by decide), fun _ => ht.sample⟩
    · obtain ⟨t, hrun, hv, hd, hw⟩ := runSteps_keeps_ports_before_lutc (step_legal hstep) (resetFree_mono (by omega) hf) (n := k)
        (by rw [h0]; simpa using h3)
      exact ⟨t, hrun, hv.trans hvalid, hd.trans hduty, fun _ => hw.trans hsample, fun h => by omega⟩
  · obtain ⟨t, hrun, -, -, -, hS, hD, hV, -⟩ := transactionResult _ hseen h0 hf
    exact ⟨t, hrun, hV, hD, hS⟩

/-! ### Abandoned transactions (45_sample_transaction.md R108) -/

/-- Settles O41: the reset step records `reset` alone, and leaves `STEP` at the code of `PHASE`. -/
theorem resetAbandonsTheTransaction : Obligations.ResetAbandonsTheTransaction := by
  intro s hr
  obtain ⟨hseen, h0, hvalid, hduty, -⟩ := inResetState_resetStep s
  refine ⟨_, step_reset s hr, ?_, ?_, hduty, hvalid, fun hr' => ?_⟩
  · rw [nextInputs_history, resetStep_history, pendingSample_append, trackSample]
  · rw [nextInputs_history, resetStep_history, forwardedOf_append, forwardedOf, forwardedOf, List.append_nil]
  · obtain ⟨u, hu⟩ := exec_next .phase (nextInputs (resetStep s))
    exact ⟨u, hu, step_eq_exec hr' hseen decode_phase hu⟩

/-! ### The skew between `sample` and `duty` (70_reset_and_hazards.md R141) -/

/-- Settles O42: the `LUTC` step writes `SAMPLE` alone, the `DUTY` step maps it and does not write it. -/
theorem sampleLeadsDutyByOneStep : Obligations.SampleLeadsDutyByOneStep := by
  intro s hseen h3 hf
  have hd3 : decode s.stepReg = .ok .lutc := by rw [h3]; exact decode_lutc
  obtain ⟨t, ht⟩ : ∃ t, t = nextInputs (setStep (setSample s (romQ s.config (pos s.regT (mult true s.freq)))) 4) := ⟨_, rfl⟩
  have hstep : step s = .next t := ht ▸ step_run s _ .lutc (rst_eq_false_of_resetFree hf) hseen hd3 (exec_lutc s)
  have hin : t.inputs = s.inputs.tail := by simp [ht]
  have hd4 : decode t.stepReg = .ok .duty := by simp [ht]
  have hstep' := step_run t _ .duty (rst_eq_false_of_resetFree (resetFree_tail hf hin)) (step_legal hstep).1 hd4 (exec_duty t)
  have hconfig : t.config = s.config := step_config hstep
  refine ⟨t, _, hstep, hstep', ?_, ?_, rfl, ?_⟩
  · rw [ht]; exact lutc_path_toNat _ _ _
  · rw [ht]; rfl
  · rw [← hconfig]; exact duQ_toNat _ _

end Sys2Proof.Machine
end

section
/-!
PROOFS of the statements about the invariants (45_sample_transaction.md section 3, 10_state.md sections 2, 4 and 6): the state after reset meets them, every step
keeps them, and what they say of the history of a run.
-/

namespace Sys2Proof.Machine

/-! ### Coherence, by the operation that `STEP` selects -/

/-- What the registers hold before the operation `i` of a transaction. -/
def CoherentAt (s : State) : Instr → Prop
  | .phase => pendingSample s.history = none
  | .lutm => ∃ e, pendingSample s.history = some e ∧ s.regT.toNat = PHASE e
  | .fmod => ∃ e, pendingSample s.history = some e ∧ s.regT.toNat = PHASE e ∧ s.regM.toNat = MAG s.config e
  | .lutc => ∃ e, pendingSample s.history = some e ∧ s.regT.toNat = PHASE e ∧ s.freq.toNat = FREQOF s.config e
  | .duty => ∃ e, pendingSample s.history = some e ∧ s.sample.toNat = SIREN s.config e

/-- `Coherent` is `CoherentAt` the selected operation, clause by clause. -/
theorem coherent_iff (s : State) : Coherent s ↔ ∀ i, s.stepReg = encode i → CoherentAt s i := by
  refine ⟨fun h i => ?_, fun h => ⟨h .phase, h .lutm, h .fmod, h .lutc, h .duty⟩⟩
  cases i
  exacts [h.at0, h.at1, h.at2, h.at3, h.at4]

theorem encode_injective {i j : Instr} (h : encode i = encode j) : i = j := by
  have hd := decode_encode j
  rw [← h, decode_encode] at hd
  injection hd

theorem coherent_of_stepReg {s : State} (i : Instr) (hi : s.stepReg = encode i) (hc : CoherentAt s i) : Coherent s :=
  (coherent_iff s).2 fun j hj => by
    obtain rfl : i = j := encode_injective (hi.symm.trans hj)
    exact hc

/-! ### The transaction invariant -/

/-- A block in the reset state meets the invariant when its history is explained, with no transaction in progress and nothing forwarded since reset. -/
theorem transactionInv_of_inResetState {s : State} (hs : InResetState s) (hexplained : explained s.config none s.history = true)
    (hpending : pendingSample s.history = none) (hlast : lastForwarded s.history = none) : TransactionInv s where
  legal := ⟨hs.resetSeen, by rw [hs.stepReg]; rfl⟩
  explained := hexplained
  coherent := coherent_of_stepReg .phase hs.stepReg hpending
  ports := ⟨fun _ => ⟨hs.valid, hs.duty, fun _ => hs.sample⟩, fun w d h => by rw [hlast] at h; cases h⟩

theorem reset_keeps_transactionInv {s : State} (hs : TransactionInv s) : TransactionInv (nextInputs (resetStep s)) := by
  refine transactionInv_of_inResetState (inResetState_resetStep s) ?_ ?_ ?_
  · simp [explained_snoc, hs.explained, explained]
  · simp [trackSample]
  · simp [trackForwarded]

/-- The registers cohere with the sample in progress after each operation: it computes the next function-level value. -/
theorem step_keeps_coherent {s t : State} (hs : Coherent s) (h : step s = .next t) (hr : rst s = false) : Coherent t := by
  obtain ⟨-, ⟨hc, rfl⟩ | ⟨hc, rfl⟩ | ⟨hc, rfl⟩ | ⟨hc, rfl⟩ | ⟨hc, rfl⟩⟩ := step_run_cases h hr
  · exact coherent_of_stepReg .lutm rfl ⟨elapsedMicros s, by simp [trackSample], phase_path_toNat _⟩
  · obtain ⟨e, hp, hT⟩ := hs.at1 hc
    exact coherent_of_stepReg .fmod rfl ⟨e, hp, hT, lutm_path_eq_MAG _ hT⟩
  · obtain ⟨e, hp, hT, hM⟩ := hs.at2 hc
    exact coherent_of_stepReg .lutc rfl ⟨e, hp, hT, fmod_path_eq_FREQOF hM⟩
  · obtain ⟨e, hp, hT, hF⟩ := hs.at3 hc
    exact coherent_of_stepReg .duty rfl ⟨e, hp, lutc_path_eq_SIREN hT hF⟩
  · refine coherent_of_stepReg .phase rfl ?_
    simp [CoherentAt, trackSample]

/-- The events of an operation are explained by the sample in progress: `PHASE` begins when there is none, `DUTY` forwards its values. -/
theorem explained_execEvents {s : State} {i : Instr} (hs : Coherent s) (hi : s.stepReg = encode i) :
    explained s.config (pendingSample s.history) (execEvents i s) = true := by
  have hc : CoherentAt s i := (coherent_iff s).1 hs i hi
  cases i
  case phase =>
    have hp : pendingSample s.history = none := hc
    simp [execEvents, hp, explained]
  case duty =>
    obtain ⟨e, hp, hS⟩ := hc
    simp [execEvents, hp, explained, hS, duQ_eq_DUTYOF hS]
  all_goals simp [execEvents, explained]

theorem step_keeps_explained {s t : State} (hs : TransactionInv s) (h : step s = .next t) (hr : rst s = false) :
    explained t.config none t.history = true := by
  rcases step_cases h with ⟨hreset, -⟩ | ⟨-, -, i, u, hi, hu, rfl⟩
  · rw [hr] at hreset; cases hreset
  · rw [step_config h, nextInputs_history, exec_history hu, explained_append, hs.explained, Bool.true_and]
    exact explained_execEvents hs.coherent hi

/-- The ports show the last result as before where the duty ports and the last forwarded pair stay, and `SAMPLE` does outside `STEP` 4. -/
theorem portsShowLastResult_of_eq {s t : State} (hs : PortsShowLastResult s) (hlast : lastForwarded t.history = lastForwarded s.history)
    (hvalid : t.valid = s.valid) (hduty : t.duty = s.duty)
    (hsample : t.stepReg ≠ 4 → s.stepReg ≠ 4 ∧ t.sample = s.sample) : PortsShowLastResult t := by
  constructor
  · intro h
    obtain ⟨hv, hd, hw⟩ := hs.before (hlast ▸ h)
    exact ⟨hvalid.trans hv, hduty.trans hd, fun h4 => (hsample h4).2.trans (hw (hsample h4).1)⟩
  · intro w d h
    obtain ⟨hv, hd, hw⟩ := hs.after w d (hlast ▸ h)
    exact ⟨hvalid.trans hv, hduty.trans hd, fun h4 => (hsample h4).2.trans (hw (hsample h4).1)⟩

theorem portsShowLastResult_of_forwarded {t : State} {w : Word} {d : Nat} (hlast : lastForwarded t.history = some (w, d))
    (hvalid : t.valid = true) (hduty : t.duty = d) (hsample : t.sample = w) : PortsShowLastResult t := by
  constructor
  · intro h
    rw [hlast] at h; cases h
  · intro w' d' h
    rw [hlast] at h; cases h
    exact ⟨hvalid, hduty, fun _ => hsample⟩

/-- Only `DUTY` forwards a pair, and it shows the one it forwards; only `LUTC` changes `SAMPLE`, and it leads to `STEP` 4. -/
theorem step_keeps_ports {s t : State} (hs : PortsShowLastResult s) (h : step s = .next t) (hr : rst s = false) :
    PortsShowLastResult t := by
  obtain ⟨-, ⟨hc, rfl⟩ | ⟨hc, rfl⟩ | ⟨hc, rfl⟩ | ⟨hc, rfl⟩ | ⟨hc, rfl⟩⟩ := step_run_cases h hr
  · exact portsShowLastResult_of_eq hs (by simp [trackForwarded]) (by simp) (by simp) (by simp [hc])
  · exact portsShowLastResult_of_eq hs rfl rfl rfl (by simp [hc])
  · exact portsShowLastResult_of_eq hs rfl rfl rfl (by simp [hc])
  · exact portsShowLastResult_of_eq hs rfl rfl rfl (by simp)
  · exact portsShowLastResult_of_forwarded (by simp [trackForwarded]) rfl rfl rfl

/-- Settles O44: a reset step leaves the reset state; any other step keeps the four parts one by one. -/
theorem stepKeepsTransactionInvariant : Obligations.StepKeepsTransactionInvariant := by
  intro s t hs h
  cases hr : rst s with
  | true =>
    rw [step_reset s hr] at h; injection h with h; subst h
    exact reset_keeps_transactionInv hs
  | false =>
    exact ⟨step_legal h, step_keeps_explained hs h hr, step_keeps_coherent hs.coherent h hr, step_keeps_ports hs.ports h hr⟩

/-! ### The register ranges and the width of `DUTY` (10_state.md R19 to R22) -/

theorem freqSum_range (m : Word) : 1000 ≤ (freqSum (fmQ (fmProd m))).toNat ∧ (freqSum (fmQ (fmProd m))).toNat ≤ 2999 := by
  rw [fmod_path_toNat]
  exact ⟨le_FMOD _, FMOD_le (Nat.le_of_lt_succ m.isLt)⟩

/-- Each operation writes its register within the register's range; a register out of its turn has no range to keep. -/
theorem step_keeps_rangeInv {s t : State} (hs : RangeInv s) (h : step s = .next t) : RangeInv t := by
  cases hr : rst s with
  | true =>
    rw [step_reset s hr] at h; injection h with h; subst h
    exact ⟨hs.table, by simp, by simp, by simp, by simp⟩
  | false =>
    obtain ⟨-, ⟨hc, rfl⟩ | ⟨hc, rfl⟩ | ⟨hc, rfl⟩ | ⟨hc, rfl⟩ | ⟨hc, rfl⟩⟩ := step_run_cases h hr
    · exact ⟨by simpa using hs.table, by simp, by simp, by simpa using hs.sample, by simpa using hs.duty⟩
    · exact ⟨hs.table, fun _ => memRead_le s.config hs.table _, by simp, hs.sample, hs.duty⟩
    · exact ⟨hs.table, fun _ => hs.m (by simp [hc]), fun _ => freqSum_range s.regM, hs.sample, hs.duty⟩
    · exact ⟨hs.table, fun _ => hs.m (by simp [hc]), fun _ => hs.freq (by simp [hc]), memRead_le s.config hs.table _, hs.duty⟩
    · exact ⟨hs.table, by simp, by simp, hs.sample, (duQ_toNat s.config s.sample).trans_le (DUTYMAP_mono s.config hs.sample)⟩

/-- `DUTY` is written by the reset step, with 0, and by the `DUTY` operation, with a quotient of `DUTY_W` bits. -/
theorem step_keeps_dutyFits {s t : State} (hs : DutyFits s) (h : step s = .next t) : DutyFits t := by
  rw [DutyFits, step_config h]
  rcases step_cases h with ⟨-, rfl⟩ | ⟨-, -, i, u, -, hu, rfl⟩
  · exact Nat.two_pow_pos _
  · by_cases hi : i = .duty
    · subst hi
      rw [nextInputs_duty, exec_duty_duty hu]
      exact DUTYMAP_lt s.config _ s.sample.isLt
    · rw [nextInputs_duty, exec_keeps_duty hi hu]
      exact hs

/-- Settles O45: every operation writes in range, and a quotient of `DUTY_W` bits fits `DUTY_W` bits. -/
theorem stepKeepsRegisterRanges : Obligations.StepKeepsRegisterRanges :=
  ⟨fun _ _ hs h => step_keeps_rangeInv hs h, fun _ _ hs h => step_keeps_dutyFits hs h⟩

/-- Settles O43: `State.reset` is in the reset state, with an empty history and the default table. -/
theorem resetMeetsInvariants : Obligations.ResetMeetsInvariants :=
  ⟨transactionInv_of_inResetState ⟨rfl, rfl, rfl, rfl, rfl⟩ rfl rfl rfl,
    ⟨entriesInRange_of_admissible sineTableDefault_admissible, by decide, by decide, by decide, Nat.zero_le _⟩, Nat.two_pow_pos _⟩

/-! ### Runs -/

/-- What every step keeps, every run keeps. -/
theorem runSteps_keeps {P : State → Prop} (hstep : ∀ s t, P s → step s = .next t → P t) {n : Nat} {s t : State}
    (hs : P s) (h : runSteps n s = .next t) : P t := by
  induction n generalizing s with
  | zero => injection h with h; exact h ▸ hs
  | succ n ih =>
    obtain ⟨u, hu, hrun⟩ := runSteps_succ_inv h
    exact ih (hstep s u hs hu) hrun

theorem runSteps_config {n : Nat} {s t : State} (h : runSteps n s = .next t) : t.config = s.config :=
  runSteps_keeps (P := fun x => x.config = s.config) (fun _ _ hx hstep => (step_config hstep).trans hx) rfl h

/-- A run appends its events to the history, whatever the history is, and does not read it (10_state.md R17). -/
theorem runSteps_with_history {n : Nat} {s t : State} (h : runSteps n s = .next t) (k : List Event) :
    ∃ new, t.history = s.history ++ new ∧ runSteps n { s with history := k } = .next { t with history := k ++ new } := by
  induction n generalizing s k with
  | zero => injection h with h; subst h; exact ⟨[], (List.append_nil _).symm, by rw [List.append_nil]; rfl⟩
  | succ n ih =>
    obtain ⟨u, hu, hrun⟩ := runSteps_succ_inv h
    obtain ⟨first, hfirst, hstep, -⟩ := historyRecordsAndIsNeverRead s u k hu
    obtain ⟨rest, hrest, hrun'⟩ := ih hrun (k ++ first)
    refine ⟨first ++ rest, by rw [hrest, hfirst, List.append_assoc], ?_⟩
    rw [runSteps_succ n hstep, hrun', List.append_assoc]

/-- Settles O46: after the reset step the run is that of the same block with an empty history, which meets the transaction invariant. -/
theorem forwardedEventsAreImageOfSampled : Obligations.ForwardedEventsAreImageOfSampled := by
  intro n s t hr hrun
  obtain ⟨u, hstep, hrest⟩ := runSteps_succ_inv hrun
  rw [step_reset s hr] at hstep; injection hstep with hstep; subst hstep
  obtain ⟨h, hhist, hrun'⟩ := runSteps_with_history hrest []
  have hstart : TransactionInv { nextInputs (resetStep s) with history := [] } :=
    transactionInv_of_inResetState ⟨rfl, rfl, rfl, rfl, rfl⟩ rfl rfl rfl
  have hend : TransactionInv { t with history := [] ++ h } := runSteps_keeps stepKeepsTransactionInvariant hstart hrun'
  have hexplained : explained s.config none h = true := runSteps_config hrun ▸ hend.explained
  refine ⟨h, ?_, hexplained, forwardedOf_of_explained s.config none h hexplained⟩
  rw [hhist, nextInputs_history, resetStep_history, List.append_assoc, List.singleton_append]

end Sys2Proof.Machine
end
